-- ==== Sys2Proof/Word.lean ====
section
/-! DEFINITION. The widths of the engine's data: bytes, 32-bit words, 12-bit uop words, and the shapes of its three
internal arrays (00_scope.md R10, R12, R13; 10_state.md R47, R48; 30_encoding.md R107). -/

namespace Sys2Proof

/-- One byte. -/
abbrev Byte := BitVec 8

/-- A 32-bit word: a host register, a schedule word, a CMD word (R10, R100). -/
abbrev Word := BitVec 32

/-- A micro-operation word of the round sequencer, 12 bits (R107). -/
abbrev UopWord := BitVec 12

/-- The IDX operand of a micro-operation, bits 9:4 of its word (R107). -/
abbrev Idx := BitVec 6

/-- The state register S: four rows of four bytes, `S[r][c]` at row `r`, column `c` (R47). -/
abbrev SReg := Vector (Vector Byte 4) 4

/-- The key-schedule store W: 60 words (R48). -/
abbrev KeyStore := Vector Word 60

/-- A 16-byte block as the host port carries it: the four words of DIN or DOUT (R43, R44, R46). -/
abbrev Block := Vector Word 4

/-- The key staging registers KEY0 .. KEY7 (R42). -/
abbrev KeyRegs := Vector Word 8

end Sys2Proof
end

