-- ==== Sys2Proof/Syntax.lean ====
section
/-! DEFINITION. The instructions: one constructor per row of spec/opcode_table.json, the four commands a host writes to CMD
(30_encoding.md R101) and the eleven micro-operations the round sequencer issues (R108); and the two encoded forms of
R100 that they stand in. -/

namespace Sys2Proof

/-- An instruction. -/
inductive Instr where
  /-- NOP, CMD = 0 (R203). -/
  | nop
  /-- KEYEXP, CMD = 1 (R204). -/
  | keyexp
  /-- ENCRYPT, CMD = 2 (R205). -/
  | encrypt
  /-- DECRYPT, CMD = 3 (R206). -/
  | decrypt
  /-- U_LOAD (R209). -/
  | uLoad
  /-- U_SB, SubBytes (R151). -/
  | uSb
  /-- U_SR, ShiftRows (R153). -/
  | uSr
  /-- U_MC, MixColumns (R155). -/
  | uMc
  /-- U_ARK, AddRoundKey of round `rnd` (R157). -/
  | uArk (rnd : Idx)
  /-- U_ISB, InvSubBytes (R152). -/
  | uIsb
  /-- U_ISR, InvShiftRows (R154). -/
  | uIsr
  /-- U_IMC, InvMixColumns (R156). -/
  | uImc
  /-- U_STORE (R210). -/
  | uStore
  /-- U_KLOAD of key word `i` (R183). -/
  | uKload (i : Idx)
  /-- U_KGEN of schedule word `i` (R184). -/
  | uKgen (i : Idx)
  deriving DecidableEq, Repr

/-- An encoded instruction, in one of the two forms of R100 that select an operation: the 32-bit value written to CMD, or
the 12-bit word the sequencer issues. -/
inductive Encoded where
  | cmd (v : Word)
  | uop (u : UopWord)
  deriving DecidableEq, Repr

end Sys2Proof
end

