-- ==== Sys2Proof/Decode.lean ====
section
/-! DEFINITION. The decoder of CMD words (30_encoding.md R101, R102) and of uop words (R107, R108, R110), and the encoder
written from the same tables.  Both are total; what is no instruction is rejected by name. -/

namespace Sys2Proof

/-- Why an encoded word is no instruction. -/
inductive DecodeError where
  /-- A CMD value other than 0, 1, 2, 3 (R102). The register block turns it into ILLEGAL_CMD. -/
  | illegalCommand
  /-- uop OPC 0xB .. 0xF (R110). -/
  | reservedOpcode
  /-- A non-zero IDX on an operation that takes none (R110). -/
  | nonzeroIdx
  /-- A non-zero bit 11:10 (R110). -/
  | nonzeroTop
  deriving DecidableEq, Repr

/-- OPC, bits 3:0 of a uop word (R107). -/
def uopOpc (u : UopWord) : BitVec 4 := u.extractLsb' 0 4

/-- IDX, bits 9:4 of a uop word (R107). -/
def uopIdx (u : UopWord) : Idx := u.extractLsb' 4 6

/-- Bits 11:10 of a uop word, "always 0b00" (R107). -/
def uopTop (u : UopWord) : BitVec 2 := u.extractLsb' 10 2

/-- R101: the whole 32-bit value selects the command, no field is ignored. -/
def decodeCmd (v : Word) : Except DecodeError Instr :=
  if v = 0x00000000#32 then .ok .nop
  else if v = 0x00000001#32 then .ok .keyexp
  else if v = 0x00000002#32 then .ok .encrypt
  else if v = 0x00000003#32 then .ok .decrypt
  else .error .illegalCommand

/-- A row of R108 without an index matches only with IDX = 0 (mask 0xFFF). -/
def plainUop (idx : Idx) (i : Instr) : Except DecodeError Instr :=
  if idx = 0#6 then .ok i else .error .nonzeroIdx

/-- R108, R110: bits 11:10 are zero, OPC selects the row, IDX is the operand of U_ARK, U_KLOAD and U_KGEN (mask 0xC0F). -/
def decodeUop (u : UopWord) : Except DecodeError Instr :=
  if uopTop u ≠ 0b00#2 then .error .nonzeroTop
  else
    match (uopOpc u).toNat with
    | 0x0 => plainUop (uopIdx u) .uLoad
    | 0x1 => plainUop (uopIdx u) .uSb
    | 0x2 => plainUop (uopIdx u) .uSr
    | 0x3 => plainUop (uopIdx u) .uMc
    | 0x4 => .ok (.uArk (uopIdx u))
    | 0x5 => plainUop (uopIdx u) .uIsb
    | 0x6 => plainUop (uopIdx u) .uIsr
    | 0x7 => plainUop (uopIdx u) .uImc
    | 0x8 => plainUop (uopIdx u) .uStore
    | 0x9 => .ok (.uKload (uopIdx u))
    | 0xA => .ok (.uKgen (uopIdx u))
    | _ => .error .reservedOpcode

/-- The decoder: the form says who decodes the word (R100), no mode bit changes it (R112). -/
def decode : Encoded → Except DecodeError Instr
  | .cmd v => decodeCmd v
  | .uop u => decodeUop u

/-- R115: a uop word is `(IDX << 4) | OPC`, with bits 11:10 zero (R107). -/
def uopWord (idx : Idx) (opc : BitVec 4) : UopWord := 0b00#2 ++ idx ++ opc

/-- The encoder: the word of each row, from R101 and R108. -/
def encode : Instr → Encoded
  | .nop => .cmd 0x00000000#32
  | .keyexp => .cmd 0x00000001#32
  | .encrypt => .cmd 0x00000002#32
  | .decrypt => .cmd 0x00000003#32
  | .uLoad => .uop (uopWord 0#6 0x0#4)
  | .uSb => .uop (uopWord 0#6 0x1#4)
  | .uSr => .uop (uopWord 0#6 0x2#4)
  | .uMc => .uop (uopWord 0#6 0x3#4)
  | .uArk rnd => .uop (uopWord rnd 0x4#4)
  | .uIsb => .uop (uopWord 0#6 0x5#4)
  | .uIsr => .uop (uopWord 0#6 0x6#4)
  | .uImc => .uop (uopWord 0#6 0x7#4)
  | .uStore => .uop (uopWord 0#6 0x8#4)
  | .uKload i => .uop (uopWord i 0x9#4)
  | .uKgen i => .uop (uopWord i 0xA#4)

/-- The encoded form of a table word of `nbits` bits: a row of format CMD32 has 32, a row of format UOP12 has 12 (16 in
whole bytes), with nothing above its 12 bits. -/
def tableForm (nbits w : Nat) : Option Encoded :=
  if nbits = 32 then
    if w < 2 ^ 32 then some (.cmd (BitVec.ofNat 32 w)) else none
  else if nbits = 16 ∨ nbits = 12 then
    if w < 2 ^ 12 then some (.uop (BitVec.ofNat 12 w)) else none
  else none

/-- The instruction the decoder reads from a word numbered as spec/opcode_table.json numbers it. -/
def decodeTableWord (nbits w : Nat) : Option Instr :=
  match tableForm nbits w with
  | some e =>
    match decode e with
    | .ok i => some i
    | .error _ => none
  | none => none

end Sys2Proof
end

