-- ==== Sys2Proof/Config.lean ====
section
/-! DEFINITION. The values the spec leaves unspecified after a reset (70_reset_and_hazards.md R271; 93_implementation_defined.md ID6, ID7) as constants without a
body.  The open parameter BASE_ADDR (R11) is carried in the state, see `State.basePage`; the other open parameters of R11
are the subject of notes/assumptions 3, 4 and 9. -/

namespace Sys2Proof

/-- What S holds after the reset input was asserted for the n-th time on a running machine: "unspecified; never
observable" (R271, ID6: any value).  A FREE VALUE; notes/assumptions/2.md. -/
opaque Config.freeS : Nat → SReg

/-- What W holds after the reset input was asserted for the n-th time on a running machine: "unspecified; never observable
while KEY_VALID = 0" (R271, ID7: any value).  A FREE VALUE; notes/assumptions/2.md. -/
opaque Config.freeW : Nat → KeyStore

end Sys2Proof
end

