-- ==== Sys2Proof/Machine/State.lean ====
section
/-! DEFINITION. The state of one engine, all of it plain data (10_state.md R30 to R53), with the host's side of the port
as a list of pending actions that the step reads; the reasons a step can stop; the state after reset
(70_reset_and_hazards.md R271). -/

namespace Sys2Proof.Machine

/-- The round sequencer's PHASE (R49). -/
inductive Phase where
  | idle
  | kexp
  | enc
  | dec
  deriving DecidableEq, Repr

/-- The three variants of 00_scope.md R2; their (Nk, Nr) are `Variant.nk` and `Variant.nr` of Machine/Operands.lean. -/
inductive Variant where
  | aes128
  | aes192
  | aes256
  deriving DecidableEq, Repr

/-- One latency parameter of R11: a number of engine steps for each variant, "a function of v only" (R281). -/
structure LatencyOf where
  aes128 : Nat
  aes192 : Nat
  aes256 : Nat
  deriving DecidableEq, Repr

/-- The open parameters LAT_KEYEXP, LAT_ENC and LAT_DEC of R11 (ID1), each at least 1. -/
structure Latencies where
  /-- `LAT_KEYEXP(v)`. -/
  keyexp : LatencyOf
  /-- `LAT_ENC(v)`. -/
  enc : LatencyOf
  /-- `LAT_DEC(v)`. -/
  dec : LatencyOf
  deriving DecidableEq, Repr

/-- The command error codes by name (60_exceptions.md R241); their numbers are `ErrCode.code` of Machine/Flags.lean. -/
inductive ErrCode where
  | ok
  | invalidKeyLength
  | invalidBlockLength
  | badVariant
  | noKey
  | illegalCmd
  deriving DecidableEq, Repr

/-- A register of the host-visible block (R32). -/
inductive Reg where
  | ctrl
  | cmd
  | status
  | key (k : Fin 8)
  | din (k : Fin 4)
  | dout (k : Fin 4)
  deriving DecidableEq, Repr

/-- What the outside of the engine can do to it: the transactions `MemRead(addr, n)` and `MemWrite(addr, n, v)` (R75, R76),
the polling loop of 30_encoding.md R113, and the reset input (R270). -/
inductive HostAction where
  /-- `MemRead(addr, size)`. -/
  | read (addr size : Nat)
  /-- `MemWrite(addr, size, v)`. -/
  | write (addr size : Nat) (v : Word)
  /-- `POLL`: `MemRead(addr, 4)` until `result & mask = value`; between two reads the engine takes `gap + 1` steps if it is
  busy that long (R113, R282; notes/assumptions/5.md). -/
  | poll (addr : Nat) (mask value : Word) (gap : Nat)
  /-- `rst_n` is asserted and released (R270, R272). -/
  | reset
  deriving DecidableEq, Repr

/-- One pending host action and its place in the interleaving of R30: it arrives after `wait` further engine steps, or at
once when the engine is IDLE, since an IDLE engine has no step (R207). -/
structure HostTurn where
  wait : Nat
  act : HostAction
  deriving DecidableEq, Repr

/-- The response of the port to a transaction (R75, R76, R247). -/
inductive BusResponse where
  /-- No transaction since reset. -/
  | none
  /-- OK, with the data of a read. -/
  | data (v : Word)
  /-- OK of a write. -/
  | okWrite
  /-- The ERROR response, `raise BusError`. -/
  | error
  deriving DecidableEq, Repr

/-- The engine.  STATUS.BUSY is no field: it is `PHASE ≠ IDLE` (R35). CMD has no storage (R34). CTRL[7:2] and CTRL[31:24]
are no storage (R103). The constant ROMs (R51) are the constants of Machine/Tables.lean. -/
structure State where
  /-- CTRL.KSIZE (R33). -/
  ksize : BitVec 2
  /-- CTRL.KEYLEN (R33). -/
  keylen : Byte
  /-- CTRL.BLKLEN (R33). -/
  blklen : Byte
  /-- STATUS.KEY_VALID (R36). -/
  keyValid : Bool
  /-- STATUS.DONE (R37). -/
  done : Bool
  /-- STATUS.OVR (R38). -/
  ovr : Bool
  /-- STATUS.ERR (R39). -/
  err : BitVec 4
  /-- STATUS.KVAR (R40). -/
  kvar : BitVec 2
  /-- KEY0 .. KEY7 (R42). -/
  key : KeyRegs
  /-- DIN0 .. DIN3 (R43). -/
  din : Block
  /-- DOUT0 .. DOUT3 (R44). -/
  dout : Block
  /-- The state register S (R47). -/
  sreg : SReg
  /-- The key-schedule store W (R48). -/
  w : KeyStore
  /-- PHASE (R49). -/
  phase : Phase
  /-- UPC, the engine's only program counter (R49). -/
  upc : BitVec 6
  /-- OP_NK (R50). -/
  opNk : BitVec 4
  /-- OP_NR (R50). -/
  opNr : BitVec 4
  /-- The open parameter BASE_ADDR of R11, as `BASE_ADDR / 256`; nothing writes it (notes/assumptions/3.md). -/
  basePage : Nat
  /-- The open parameters LAT_KEYEXP, LAT_ENC, LAT_DEC of R11; nothing writes them (notes/assumptions/4.md). -/
  lat : Latencies
  /-- The model's own: while BUSY, how many engine steps are still to come, the completion step among them; set at
  acceptance to the latency of the command and the variant (R212, R281; notes/assumptions/4.md). -/
  stepsLeft : Nat
  /-- The model's own: the pending host actions, first one first (R30, R79; notes/assumptions/5.md). -/
  turns : List HostTurn
  /-- The model's own: the port's response to the last transaction (notes/assumptions/6.md). -/
  resp : BusResponse
  /-- The model's own: how often the reset input was asserted; numbers the free values of Config
  (notes/assumptions/2.md). -/
  resets : Nat
  deriving DecidableEq, Repr

/-- The engine itself never faults: "the engine can neither fault nor hang" (60_exceptions.md R259).  Its errors are
command errors, which are next states (R249), and bus errors, which are next states with an ERROR response (R247).  So
this closed type has no constructor, and that no step faults holds by its type; safe. -/
inductive Fault where
  deriving DecidableEq, Repr

/-- Why a step has no meaning. -/
inductive Refusal where
  /-- Raised by an arm of exec for an instruction that has no meaning yet; no arm does. Safe. -/
  | notModelled (mnemonic : String)
  /-- Raised by step when neither agent has a step: PHASE = IDLE and no host action is pending (R207: "When PHASE = IDLE the
  engine has no step: it does not stutter and changes nothing").  Safe. -/
  | quiescent
  /-- Raised by the engine step when UPC lies past the end of PROG(PHASE, OP_NK, OP_NR), which no run reaches (R49). Safe. -/
  | upcPastProgram
  /-- Raised by the engine step when the issued word is no micro-operation, which no program holds (R110: "A model refuses
  them"). Safe. -/
  | reservedUop
  /-- Raised by U_ARK, U_KLOAD and U_KGEN when IDX is out of the range of R109 ("must refuse an out-of-range IDX"). Safe. -/
  | idxOutOfRange
  /-- Raised by KEYEXP, ENCRYPT and DECRYPT where the variant code they start with is 0b11, which selects no variant (R104):
  for ENCRYPT and DECRYPT only in a state with STATUS.KVAR = 0b11, which no run reaches (R40), for KEYEXP never (R244).
  Safe. -/
  | noVariant
  deriving DecidableEq, Repr

/-- The state right after reset is released (R271): CTRL = 0x00101000, all other host-visible registers 0, IDLE.  S and W
are unspecified there; zero is the model's DESIGN CHOICE (notes/assumptions/1.md).  BASE_ADDR is an open parameter; page 0
is the model's DESIGN CHOICE (notes/assumptions/3.md).  So are the latencies; the reference timing of R283, one uop an engine
step, is the model's DESIGN CHOICE (notes/assumptions/4.md). -/
def State.reset : State where
  ksize := 0b00#2
  keylen := 0x10#8
  blklen := 0x10#8
  keyValid := false
  done := false
  ovr := false
  err := 0#4
  kvar := 0b00#2
  key := Vector.replicate 8 0#32
  din := Vector.replicate 4 0#32
  dout := Vector.replicate 4 0#32
  sreg := Vector.replicate 4 (Vector.replicate 4 0#8)
  w := Vector.replicate 60 0#32
  phase := .idle
  upc := 0#6
  opNk := 0#4
  opNr := 0#4
  basePage := 0
  lat := { keyexp := ⟨44, 52, 60⟩, enc := ⟨42, 50, 58⟩, dec := ⟨42, 50, 58⟩ }
  stepsLeft := 0
  turns := []
  resp := .none
  resets := 0

/-- An outcome, for this machine. -/
abbrev Result := Host.Outcome State Fault Refusal

end Sys2Proof.Machine
end

