-- ==== Sys2Proof/Machine/Operands.lean ====
section
/-! DEFINITION. The operand forms: bytes of a word (00_scope.md R13), cells of S (10_state.md R47), words of W, KEY, DIN
(R42 to R48), the variant a code selects (30_encoding.md R104), the IDX ranges of a running command (R109). -/

namespace Sys2Proof.Machine

/-- R13: `byte(w, j) = w[31-8j : 24-8j]`, byte 0 the most significant. -/
def byteOf (w : Word) (j : Fin 4) : Byte := w.extractLsb' (24 - 8 * j.val) 8

/-- R13: `word(b0, b1, b2, b3) = {b0, b1, b2, b3}`. -/
def wordOf (b0 b1 b2 b3 : Byte) : Word := b0 ++ b1 ++ b2 ++ b3

/-- `S[r][c]` (R14, R47). -/
def cell (s : SReg) (r c : Fin 4) : Byte := s[r][c]

/-- The state register whose byte at row r, column c is `f r c`; every right-hand side of a transform is read from the old
S (R15, R150). -/
def sregOf (f : Fin 4 → Fin 4 → Byte) : SReg :=
  Vector.ofFn fun r => Vector.ofFn fun c => f r c

/-- R209, R106: `S[r][c] <- byte(blk[c], r)`; column c of S is word c of the block, row 0 the most significant byte (R47). -/
def sregOfBlock (b : Block) : SReg := sregOf fun r c => byteOf b[c] r

/-- R210, R106: `blk[c] <- word(S[0][c], S[1][c], S[2][c], S[3][c])`. -/
def blockOfSreg (s : SReg) : Block :=
  Vector.ofFn fun c => wordOf (cell s 0 c) (cell s 1 c) (cell s 2 c) (cell s 3 c)

/-- `W[i]`; every index a command issues is below 60 (20_memory.md R85). -/
def wAt (w : KeyStore) (i : Nat) : Word := w[i]?.getD 0#32

/-- `KEY[i]`; every index a command issues is below 8 (R109). -/
def keyAt (k : KeyRegs) (i : Nat) : Word := k[i]?.getD 0#32

/-- Byte m of the secret key staged in KEY: `byte(KEY[m div 4], m mod 4)` (R45). -/
def keyByte (k : KeyRegs) (m : Nat) : Byte := byteOf (keyAt k (m / 4)) ⟨m % 4, Nat.mod_lt m (by decide)⟩

/-- Byte m of a block in DIN or DOUT: `byte(DIN[m div 4], m mod 4)` (R46). -/
def blockByte (b : Block) (m : Fin 16) : Byte :=
  byteOf (b[m.val / 4]'(by omega)) ⟨m.val % 4, Nat.mod_lt m.val (by decide)⟩

/-- Nk of a variant: the key length in words (R2). -/
def Variant.nk : Variant → Nat
  | .aes128 => 4
  | .aes192 => 6
  | .aes256 => 8

/-- Nr of a variant: the number of rounds (R2). -/
def Variant.nr : Variant → Nat
  | .aes128 => 10
  | .aes192 => 12
  | .aes256 => 14

/-- A latency parameter at a variant (R11). -/
def LatencyOf.at (l : LatencyOf) : Variant → Nat
  | .aes128 => l.aes128
  | .aes192 => l.aes192
  | .aes256 => l.aes256

/-- `LAT_KEYEXP(v)`, `LAT_ENC(v)`, `LAT_DEC(v)` by the PHASE the command runs in (R281); an IDLE engine has no step. -/
def Latencies.steps (l : Latencies) (p : Phase) (v : Variant) : Nat :=
  match p with
  | .idle => 0
  | .kexp => l.keyexp.at v
  | .enc => l.enc.at v
  | .dec => l.dec.at v

/-- R104: the variant a two-bit code (CTRL.KSIZE, STATUS.KVAR) selects; 0b11 selects none. -/
def variantOf (code : BitVec 2) : Option Variant :=
  match code.toNat with
  | 0 => some .aes128
  | 1 => some .aes192
  | 2 => some .aes256
  | _ => none

/-- The code of a variant (R104). -/
def Variant.code : Variant → BitVec 2
  | .aes128 => 0b00#2
  | .aes192 => 0b01#2
  | .aes256 => 0b10#2

/-- R211: the KVAR code of the running KEYEXP, `OP_NK == 4 ? 0b00 : OP_NK == 6 ? 0b01 : 0b10`. -/
def kvarOfNk (nk : BitVec 4) : BitVec 2 :=
  if nk = 4#4 then 0b00#2 else if nk = 6#4 then 0b01#2 else 0b10#2

/-- R109: the range of IDX while a command with latched operands Nk and Nr runs, inside the IDX column of R108.  U_KGEN
also needs `Nk ≥ 4`, which R132 gives for every variant (a smaller Nk is reached by no run). -/
def idxInRange (nk nr : Nat) : Instr → Bool
  | .uArk rnd => decide (rnd.toNat ≤ nr) && decide (rnd.toNat ≤ 14)
  | .uKload i => decide (i.toNat < nk) && decide (i.toNat ≤ 7)
  | .uKgen i => decide (4 ≤ nk) && decide (nk ≤ i.toNat) && decide (i.toNat ≤ 4 * nr + 3) && decide (i.toNat ≤ 59)
  | .nop => true
  | .keyexp => true
  | .encrypt => true
  | .decrypt => true
  | .uLoad => true
  | .uSb => true
  | .uSr => true
  | .uMc => true
  | .uIsb => true
  | .uIsr => true
  | .uImc => true
  | .uStore => true

end Sys2Proof.Machine
end

