-- ==== Sys2Proof/Machine/Flags.lean ====
section
/-! DEFINITION. The status flags and fields (10_state.md R35 to R41), the words CTRL and STATUS read as (R33, R41), the
error codes (60_exceptions.md R241) and the validation that computes them (R248). -/

namespace Sys2Proof.Machine

/-- STATUS.BUSY, not a storage element: `PHASE ≠ IDLE` (R35). -/
def State.busy (s : State) : Bool := decide (s.phase ≠ .idle)

/-- The numbers of the error codes (R241). -/
def ErrCode.code : ErrCode → BitVec 4
  | .ok => 0#4
  | .invalidKeyLength => 1#4
  | .invalidBlockLength => 2#4
  | .badVariant => 3#4
  | .noKey => 4#4
  | .illegalCmd => 5#4

/-- CTRL reads as `{0x00, BLKLEN, KEYLEN, 0b000000, KSIZE}` (R33, R75). -/
def ctrlWord (s : State) : Word := 0x00#8 ++ s.blklen ++ s.keylen ++ 0b000000#6 ++ s.ksize

/-- STATUS reads as `{0 (22 bits), KVAR[1:0], ERR[3:0], OVR, DONE, KEY_VALID, BUSY}` (R41). -/
def statusWord (s : State) : Word :=
  0#22 ++ s.kvar ++ s.err ++ BitVec.ofBool s.ovr ++ BitVec.ofBool s.done ++ BitVec.ofBool s.keyValid
    ++ BitVec.ofBool s.busy

/-- The KEYEXP checks of R248: BAD_VARIANT before INVALID_KEY_LENGTH (R242, R244). -/
def validateKeyexp (s : State) : ErrCode :=
  match variantOf s.ksize with
  | none => .badVariant
  | some v => if s.keylen.toNat ≠ 4 * v.nk then .invalidKeyLength else .ok

/-- The ENCRYPT and DECRYPT checks of R248: NO_KEY before INVALID_BLOCK_LENGTH (R243, R245). -/
def validateBlock (s : State) : ErrCode :=
  if s.keyValid = false then .noKey
  else if s.blklen.toNat ≠ 16 then .invalidBlockLength
  else .ok

/-- `validate(v)`: the checks in order, the first that fails is the code (R248). -/
def validate (v : Word) (s : State) : ErrCode :=
  if v = 0#32 then .ok
  else if v = 1#32 then validateKeyexp s
  else if v = 2#32 ∨ v = 3#32 then validateBlock s
  else .illegalCmd

end Sys2Proof.Machine
end

