-- ==== Sys2Proof/Machine/Ops.lean ====
section
/-! DEFINITION. The named operations on the state: register writes, taking a command error (`fail`, the engine's only
exception entry, 43_cipher_driver.md R202, 60_exceptions.md R249; R250: no return operation exists), acceptance and
overrun (R200, R201), starting and completing a command (R204 to R206, R211), the reset input
(70_reset_and_hazards.md R271, R272). -/

namespace Sys2Proof.Machine

/-- `S <- x` (R47). -/
def State.setSreg (s : State) (x : SReg) : State := { s with sreg := x }

/-- `W[i] <- x` (R48). -/
def State.setW (s : State) (i : Nat) (x : Word) : State := { s with w := s.w.setIfInBounds i x }

/-- `DOUT[0..3] <- x`, the four words together (R44). -/
def State.setDout (s : State) (x : Block) : State := { s with dout := x }

/-- The port's response to the running transaction. -/
def State.setResp (s : State) (r : BusResponse) : State := { s with resp := r }

/-- The pending host actions. -/
def State.setTurns (s : State) (ts : List HostTurn) : State := { s with turns := ts }

/-- `STATUS.OVR <- b` (R38). -/
def State.setOvr (s : State) (b : Bool) : State := { s with ovr := b }

/-- `STATUS.KEY_VALID <- b` (R36). -/
def State.setKeyValid (s : State) (b : Bool) : State := { s with keyValid := b }

/-- `STATUS.DONE <- d; STATUS.ERR <- code` (R37, R39). -/
def State.setOutcome (s : State) (d : Bool) (c : ErrCode) : State := { s with done := d, err := c.code }

/-- TAKING A COMMAND ERROR.  `fail(code)`: `STATUS.DONE <- 1; STATUS.ERR <- code`, nothing else is written (R202); nothing
is saved and nothing redirected (R249).  There is no return from it (R250). -/
def State.fail (s : State) (c : ErrCode) : State := s.setOutcome true c

/-- Overrun: a CMD write while `PHASE ≠ IDLE`; its only effect is `STATUS.OVR <- 1` (R201). -/
def State.overrun (s : State) : State := s.setOvr true

/-- The latched operands and the program a command starts: `OP_NK, OP_NR <- v; PHASE <- p; UPC <- 0` (R204, R205, R206), with
the engine steps it will take (R281). -/
def State.launch (s : State) (p : Phase) (v : Variant) : State :=
  { s with
    phase := p, upc := 0#6, opNk := BitVec.ofNat 4 v.nk, opNr := BitVec.ofNat 4 v.nr, stepsLeft := s.lat.steps p v }

/-- One engine step less to come (R281). -/
def State.tick (s : State) : State := { s with stepsLeft := s.stepsLeft - 1 }

/-- `UPC <- UPC + 1` (R207). -/
def State.nextUop (s : State) : State := { s with upc := s.upc + 1#6 }

/-- `complete()` (R211): KEY_VALID and KVAR for a KEYEXP, then `DONE <- 1; PHASE <- IDLE; UPC <- 0`. ERR is left as
acceptance set it. -/
def State.complete (s : State) : State :=
  { s with
    keyValid := if s.phase = .kexp then true else s.keyValid
    kvar := if s.phase = .kexp then kvarOfNk s.opNk else s.kvar
    done := true
    phase := .idle
    upc := 0#6
    stepsLeft := 0 }

/-- The reset input on a running machine (R270 to R272): the values of R271; S and W unspecified, so free values of their
own; the host's pending actions, BASE_ADDR and the latencies are no state of the engine and stay. -/
def State.resetInput (s : State) : State :=
  { State.reset with
    sreg := Config.freeS s.resets
    w := Config.freeW s.resets
    basePage := s.basePage
    lat := s.lat
    turns := s.turns
    resets := s.resets + 1 }

/-- `accept(v)` (R200): OVR is cleared; a failed check ends in `fail(code)`, else the command's own effect `run` follows. -/
def accept (v : Word) (run : State → Result) (s : State) : Result :=
  if validate v s = .ok then run (s.setOvr false)
  else .next ((s.setOvr false).fail (validate v s))

/-- A write of v to CMD: accepted while IDLE (R200), an overrun otherwise, whatever its value (R201). -/
def commandRequest (v : Word) (run : State → Result) (s : State) : Result :=
  if s.busy then .next s.overrun else accept v run s

/-- `DONE <- 0; ERR <- 0; start(v)` for the variant that `code` selects (R200, R204 to R206).  A code that selects no
variant has no meaning: see `Refusal.noVariant`. -/
def start (p : Phase) (code : BitVec 2) (s : State) : Result :=
  match variantOf code with
  | some v => .next ((s.setOutcome false .ok).launch p v)
  | none => .refused .noVariant

/-- A micro-operation whose IDX must lie in the range of R109. -/
def withIdx (i : Instr) (s t : State) : Result :=
  if idxInRange s.opNk.toNat s.opNr.toNat i then .next t else .refused .idxOutOfRange

/-- The step after an outcome: only a next state goes on. -/
def andThen (o : Result) (f : State → State) : Result :=
  match o with
  | .next s => .next (f s)
  | .fault r => .fault r
  | .refused r => .refused r

/-- One step after another: only a next state goes on. -/
def thenDo (o : Result) (f : State → Result) : Result :=
  match o with
  | .next s => f s
  | .fault r => .fault r
  | .refused r => .refused r

end Sys2Proof.Machine
end

