-- ==== Sys2Proof/Machine/Command.lean ====
section
/-! DEFINITION. The four commands (43_cipher_driver.md R203 to R206): each is the effect of the host writing its value to
CMD, in every state of the engine (an overrun while BUSY, R201; a command error where a check fails, R202). -/

namespace Sys2Proof.Machine

/-- NOP (R203): `DONE <- 1; ERR <- 0; OVR <- 0`. -/
def execNop (s : State) : Result :=
  commandRequest 0x00000000#32 (fun t => .next (t.setOutcome true .ok)) s

/-- KEYEXP (R204): `KEY_VALID <- 0`, the operands from CTRL.KSIZE, `PHASE <- KEXP`. -/
def execKeyexp (s : State) : Result :=
  commandRequest 0x00000001#32 (fun t => start .kexp t.ksize (t.setKeyValid false)) s

/-- ENCRYPT (R205): the operands from STATUS.KVAR, `PHASE <- ENC`. -/
def execEncrypt (s : State) : Result :=
  commandRequest 0x00000002#32 (fun t => start .enc t.kvar t) s

/-- DECRYPT (R206): the operands from STATUS.KVAR, `PHASE <- DEC`. -/
def execDecrypt (s : State) : Result :=
  commandRequest 0x00000003#32 (fun t => start .dec t.kvar t) s

/-- A CMD write of a value that names no command (30_encoding.md R102): ILLEGAL_CMD when accepted (R246), discarded while
BUSY (R201).  For such a v the checks of `accept` always fail, so the last argument never runs. -/
def illegalCommand (v : Word) (s : State) : Result :=
  commandRequest v (fun t => .next (t.fail .illegalCmd)) s

end Sys2Proof.Machine
end

