-- ==== Sys2Proof/Machine/Field.lean ====
section
/-! DEFINITION. GF(2^8) arithmetic modulo x^8+x^4+x^3+x+1 (40_constant_tables.md R130 to R134). Addition is XOR (R132). -/

namespace Sys2Proof.Machine

/-- R130: `xtime(b) = ((b << 1) & 0xFF) ^ (b[7] == 1 ? 0x1B : 0x00)`. -/
def xtime (b : Byte) : Byte := (b <<< 1) ^^^ (if b.getLsbD 7 then 0x1B#8 else 0x00#8)

/-- The loop of R131 over the remaining bit positions: `if b[i] == 1: p <- p ^ x; x <- xtime(x)`. -/
def galoisLoop (b : Byte) : List Nat → Byte → Byte → Byte
  | [], p, _ => p
  | i :: rest, p, x => galoisLoop b rest (if b.getLsbD i then p ^^^ x else p) (xtime x)

/-- R131: `galois_mul(a, b)`, written `a • b` in the spec. -/
def galoisMul (a b : Byte) : Byte := galoisLoop b [0, 1, 2, 3, 4, 5, 6, 7] 0x00#8 a

/-- R133: for b ≠ 0 the x with `b • x = 0x01`, and `ginv(0x00) = 0x00` (from general knowledge, GK4). -/
def ginv (b : Byte) : Byte :=
  (((List.range 256).map (BitVec.ofNat 8)).find? fun x => galoisMul b x == 0x01#8).getD 0x00#8

/-- One output bit of `affine`, indices mod 8 (R134). -/
def affineBit (x : Byte) (i : Nat) : Bool :=
  (x.getLsbD i ^^ x.getLsbD ((i + 4) % 8) ^^ x.getLsbD ((i + 5) % 8) ^^ x.getLsbD ((i + 6) % 8)
    ^^ x.getLsbD ((i + 7) % 8) ^^ (0x63#8).getLsbD i)

/-- R134: the affine transform that follows the inverse in the S-box (from general knowledge, GK1), bits 7 down to 0. -/
def affine (x : Byte) : Byte :=
  BitVec.ofBool (affineBit x 7) ++ BitVec.ofBool (affineBit x 6) ++ BitVec.ofBool (affineBit x 5)
    ++ BitVec.ofBool (affineBit x 4) ++ BitVec.ofBool (affineBit x 3) ++ BitVec.ofBool (affineBit x 2)
    ++ BitVec.ofBool (affineBit x 1) ++ BitVec.ofBool (affineBit x 0)

end Sys2Proof.Machine
end

