-- ==== Sys2Proof/Machine/KeyExp.lean ====
section
/-! DEFINITION. The key expansion engine (42_key_expansion.md R180 to R184). -/

namespace Sys2Proof.Machine

/-- RotWord (R180): `word(byte(w,1), byte(w,2), byte(w,3), byte(w,0))`. -/
def rotWord (w : Word) : Word := wordOf (byteOf w 1) (byteOf w 2) (byteOf w 3) (byteOf w 0)

/-- SubWord (R181): sbox on each of the four bytes. -/
def subWord (w : Word) : Word :=
  wordOf (sbox (byteOf w 0)) (sbox (byteOf w 1)) (sbox (byteOf w 2)) (sbox (byteOf w 3))

/-- The value `temp` of the word generator (R184) for word i, from `prev = W[i-1]`. -/
def kgenTemp (nk i : Nat) (prev : Word) : Word :=
  if i % nk = 0 then subWord (rotWord prev) ^^^ rcon (i / nk)
  else if 6 < nk ∧ i % nk = 4 then subWord prev
  else prev

/-- The word generator (R184): `W[i-Nk] ^ temp`, with `prev = W[i-1]` and `back = W[i-Nk]`. -/
def kgenWord (nk i : Nat) (prev back : Word) : Word := back ^^^ kgenTemp nk i prev

/-- U_KLOAD i (R183): `W[i] <- KEY[i]`. -/
def execUKload (i : Idx) (s : State) : Result :=
  withIdx (.uKload i) s (s.setW i.toNat (keyAt s.key i.toNat))

/-- U_KGEN i (R184): `W[i] <- W[i-Nk] ^ temp`. -/
def execUKgen (i : Idx) (s : State) : Result :=
  withIdx (.uKgen i) s
    (s.setW i.toNat
      (kgenWord s.opNk.toNat i.toNat (wAt s.w (i.toNat - 1)) (wAt s.w (i.toNat - s.opNk.toNat))))

end Sys2Proof.Machine
end

