-- ==== Sys2Proof/Machine/Round.lean ====
section
/-! DEFINITION. The round transforms as functions on S (41_round_transforms.md R151 to R157), and the micro-operations that
apply them, load S and store it (R209, R210). -/

namespace Sys2Proof.Machine

/-- SubBytes (R151). -/
def subBytes (s : SReg) : SReg := sregOf fun r c => sbox (cell s r c)

/-- InvSubBytes (R152). -/
def invSubBytes (s : SReg) : SReg := sregOf fun r c => invSbox (cell s r c)

/-- ShiftRows (R153): `S[r][c] <- S[r][(c + r) mod 4]`; `Fin 4` addition is modulo 4. -/
def shiftRows (s : SReg) : SReg := sregOf fun r c => cell s r (c + r)

/-- InvShiftRows (R154): `S[r][c] <- S[r][(c + 4 - r) mod 4]`; `Fin 4` subtraction is modulo 4. -/
def invShiftRows (s : SReg) : SReg := sregOf fun r c => cell s r (c - r)

/-- MixColumns (R155), with `a[q] = S[q][c]` and indices modulo 4. -/
def mixColumns (s : SReg) : SReg :=
  sregOf fun r c =>
    galoisMul 0x02#8 (cell s r c) ^^^ galoisMul 0x03#8 (cell s (r + 1) c) ^^^ cell s (r + 2) c ^^^ cell s (r + 3) c

/-- InvMixColumns (R156), with `a[q] = S[q][c]` and indices modulo 4. -/
def invMixColumns (s : SReg) : SReg :=
  sregOf fun r c =>
    galoisMul 0x0e#8 (cell s r c) ^^^ galoisMul 0x0b#8 (cell s (r + 1) c) ^^^ galoisMul 0x0d#8 (cell s (r + 2) c)
      ^^^ galoisMul 0x09#8 (cell s (r + 3) c)

/-- AddRoundKey (R157): `S[q][c] <- S[q][c] ⊕ byte(W[4*rnd + c], q)`. -/
def addRoundKey (w : KeyStore) (rnd : Nat) (s : SReg) : SReg :=
  sregOf fun q c => cell s q c ^^^ byteOf (wAt w (4 * rnd + c.val)) q

/-- U_LOAD (R209): S <- DIN. -/
def execULoad (s : State) : Result := .next (s.setSreg (sregOfBlock s.din))

/-- U_SB (R151). -/
def execUSb (s : State) : Result := .next (s.setSreg (subBytes s.sreg))

/-- U_SR (R153). -/
def execUSr (s : State) : Result := .next (s.setSreg (shiftRows s.sreg))

/-- U_MC (R155). -/
def execUMc (s : State) : Result := .next (s.setSreg (mixColumns s.sreg))

/-- U_ARK rnd (R157). -/
def execUArk (rnd : Idx) (s : State) : Result :=
  withIdx (.uArk rnd) s (s.setSreg (addRoundKey s.w rnd.toNat s.sreg))

/-- U_ISB (R152). -/
def execUIsb (s : State) : Result := .next (s.setSreg (invSubBytes s.sreg))

/-- U_ISR (R154). -/
def execUIsr (s : State) : Result := .next (s.setSreg (invShiftRows s.sreg))

/-- U_IMC (R156). -/
def execUImc (s : State) : Result := .next (s.setSreg (invMixColumns s.sreg))

/-- U_STORE (R210): DOUT <- S, the four words together (R44). -/
def execUStore (s : State) : Result := .next (s.setDout (blockOfSreg s.sreg))

end Sys2Proof.Machine
end

