-- ==== Sys2Proof/Machine/Dispatch.lean ====
section
/-! DEFINITION. The meaning of every instruction, one arm a constructor. -/

namespace Sys2Proof.Machine

def exec (i : Instr) (s : State) : Host.Outcome State Fault Refusal :=
  match i with
  | .nop => Sys2Proof.Machine.execNop s
  | .keyexp => Sys2Proof.Machine.execKeyexp s
  | .encrypt => Sys2Proof.Machine.execEncrypt s
  | .decrypt => Sys2Proof.Machine.execDecrypt s
  | .uLoad => Sys2Proof.Machine.execULoad s
  | .uSb => Sys2Proof.Machine.execUSb s
  | .uSr => Sys2Proof.Machine.execUSr s
  | .uMc => Sys2Proof.Machine.execUMc s
  | .uArk rnd => Sys2Proof.Machine.execUArk rnd s
  | .uIsb => Sys2Proof.Machine.execUIsb s
  | .uIsr => Sys2Proof.Machine.execUIsr s
  | .uImc => Sys2Proof.Machine.execUImc s
  | .uStore => Sys2Proof.Machine.execUStore s
  | .uKload idx => Sys2Proof.Machine.execUKload idx s
  | .uKgen idx => Sys2Proof.Machine.execUKgen idx s

end Sys2Proof.Machine
end

