-- ==== Sys2Proof/Machine/Port.lean ====
section
/-! DEFINITION. The host port: the register window, `MemRead` and `MemWrite` (20_memory.md R70 to R78), BusError
(60_exceptions.md R247), and one step of the host agent (10_state.md R30). -/

namespace Sys2Proof.Machine

/-- BASE_ADDR, 256-byte aligned (R11, R70). -/
def State.baseAddr (s : State) : Nat := 256 * s.basePage

/-- The address map (R71): offsets 0x00 CTRL, 0x04 CMD, 0x08 STATUS, 0x10..0x2C KEY0..KEY7, 0x30..0x3C DIN0..DIN3,
0x40..0x4C DOUT0..DOUT3; every other offset is misaligned (R73) or unmapped. -/
def regAt (off : Nat) : Option Reg :=
  match off with
  | 0x00 => some .ctrl
  | 0x04 => some .cmd
  | 0x08 => some .status
  | 0x10 => some (.key 0)
  | 0x14 => some (.key 1)
  | 0x18 => some (.key 2)
  | 0x1C => some (.key 3)
  | 0x20 => some (.key 4)
  | 0x24 => some (.key 5)
  | 0x28 => some (.key 6)
  | 0x2C => some (.key 7)
  | 0x30 => some (.din 0)
  | 0x34 => some (.din 1)
  | 0x38 => some (.din 2)
  | 0x3C => some (.din 3)
  | 0x40 => some (.dout 0)
  | 0x44 => some (.dout 1)
  | 0x48 => some (.dout 2)
  | 0x4C => some (.dout 3)
  | _ => none

/-- The register a transaction of `size` bytes at `addr` selects; `none` is `raise BusError(addr)` (R75, R76, R247): a size
other than 4 (R72), a misaligned offset (R73), an unmapped offset (R71).  Addresses are unsigned (R12): one below
BASE_ADDR selects nothing. -/
def selectReg (s : State) (addr size : Nat) : Option Reg :=
  if size ≠ 4 then none
  else if addr < s.baseAddr then none
  else regAt (addr - s.baseAddr)

/-- The value a read of a register returns (R75): CMD and KEY are write-only and read 0. -/
def readReg (r : Reg) (s : State) : Word :=
  match r with
  | .ctrl => ctrlWord s
  | .cmd => 0x00000000#32
  | .status => statusWord s
  | .key _ => 0x00000000#32
  | .din k => s.din[k]
  | .dout k => s.dout[k]

/-- The three fields of a CTRL write; v[7:2] and v[31:24] are discarded (R76). -/
def State.writeCtrl (s : State) (v : Word) : State :=
  { s with ksize := v.extractLsb' 0 2, keylen := v.extractLsb' 8 8, blklen := v.extractLsb' 16 8 }

/-- `KEY[k] <- v` (R76). -/
def State.writeKey (s : State) (k : Fin 8) (v : Word) : State := { s with key := s.key.set k v }

/-- `DIN[k] <- v` (R76). -/
def State.writeDin (s : State) (k : Fin 4) (v : Word) : State := { s with din := s.din.set k v }

/-- A write of v to CMD: the instruction v encodes, or the illegal command (R34, R101, R102). -/
def writeCmd (v : Word) (s : State) : Result :=
  match decode (.cmd v) with
  | .ok i => exec i s
  | .error _ => illegalCommand v s

/-- The effect of a write on a register other than CMD (R76): none on STATUS and DOUT, none while BUSY. -/
def writeStaged (r : Reg) (v : Word) (s : State) : State :=
  match r with
  | .ctrl => if s.busy then s else s.writeCtrl v
  | .key k => if s.busy then s else s.writeKey k v
  | .din k => if s.busy then s else s.writeDin k v
  | .cmd => s
  | .status => s
  | .dout _ => s

/-- The effect of a write on the register it selects (R76). -/
def writeReg (r : Reg) (v : Word) (s : State) : Result :=
  match r with
  | .cmd => writeCmd v s
  | .ctrl => .next (writeStaged .ctrl v s)
  | .status => .next (writeStaged .status v s)
  | .key k => .next (writeStaged (.key k) v s)
  | .din k => .next (writeStaged (.din k) v s)
  | .dout k => .next (writeStaged (.dout k) v s)

/-- The response to `MemRead(addr, size)`; a read never changes the engine (R75). -/
def memRead (s : State) (addr size : Nat) : BusResponse :=
  match selectReg s addr size with
  | some r => .data (readReg r s)
  | none => .error

/-- `MemWrite(addr, size, v)` (R76): a BusError changes no state (R247); a write without effect still gets an OK. -/
def memWrite (addr size : Nat) (v : Word) (s : State) : Result :=
  match selectReg s addr size with
  | some r => andThen (writeReg r v s) (fun t => t.setResp .okWrite)
  | none => .next (s.setResp .error)

/-- The polling loop goes on: its read was answered and `(result & mask) == value` does not hold (R113).  After an ERROR
response the loop ends (notes/assumptions/5.md). -/
def pollAgain (mask value : Word) : BusResponse → Bool
  | .data v => decide (v &&& mask ≠ value)
  | .none => false
  | .okWrite => false
  | .error => false

/-- One step of the host agent (R30). -/
def hostStep (a : HostAction) (s : State) : Result :=
  match a with
  | .read addr size => .next (s.setResp (memRead s addr size))
  | .write addr size v => memWrite addr size v s
  | .poll addr mask value gap =>
    if pollAgain mask value (memRead s addr 4) then
      .next ((s.setResp (memRead s addr 4)).setTurns (⟨gap + 1, .poll addr mask value gap⟩ :: s.turns))
    else .next (s.setResp (memRead s addr 4))
  | .reset => .next s.resetInput

end Sys2Proof.Machine
end

