-- ==== Sys2Proof/Machine/Program.lean ====
section
/-! DEFINITION. The micro-programs PROG(PHASE, Nk, Nr) (43_cipher_driver.md R208), as operations and as the 12-bit words the
sequencer issues (30_encoding.md R107, R115). -/

namespace Sys2Proof.Machine

/-- `[U_KLOAD 0, ..., U_KLOAD Nk-1] ++ [U_KGEN Nk, ..., U_KGEN 4*Nr+3]` (R208). -/
def progKexp (nk nr : Nat) : List Instr :=
  (List.range nk).map (fun i => .uKload (BitVec.ofNat 6 i))
    ++ (List.range (4 * nr + 4 - nk)).map (fun j => .uKgen (BitVec.ofNat 6 (nk + j)))

/-- One of the rounds 1 .. Nr-1 of ENCRYPT (R208). -/
def encRound (rnd : Nat) : List Instr := [.uSb, .uSr, .uMc, .uArk (BitVec.ofNat 6 rnd)]

/-- PROG(ENC, Nk, Nr) (R208). -/
def progEnc (nr : Nat) : List Instr :=
  [.uLoad, .uArk 0#6] ++ (List.range (nr - 1)).flatMap (fun j => encRound (j + 1))
    ++ [.uSb, .uSr, .uArk (BitVec.ofNat 6 nr), .uStore]

/-- One of the rounds Nr-1 .. 1 of DECRYPT (R208). -/
def decRound (rnd : Nat) : List Instr := [.uIsr, .uIsb, .uArk (BitVec.ofNat 6 rnd), .uImc]

/-- PROG(DEC, Nk, Nr) (R208). -/
def progDec (nr : Nat) : List Instr :=
  [.uLoad, .uArk (BitVec.ofNat 6 nr)] ++ (List.range (nr - 1)).flatMap (fun j => decRound (nr - 1 - j))
    ++ [.uIsr, .uIsb, .uArk 0#6, .uStore]

/-- PROG (R208); an IDLE engine has no program (R207). -/
def progInstrs (p : Phase) (nk nr : Nat) : List Instr :=
  match p with
  | .idle => []
  | .kexp => progKexp nk nr
  | .enc => progEnc nr
  | .dec => progDec nr

/-- The word of a micro-operation; a command has none. -/
def uopWordOf (i : Instr) : Option UopWord :=
  match encode i with
  | .uop u => some u
  | .cmd _ => none

/-- PROG as the words the sequencer issues. -/
def prog (p : Phase) (nk nr : Nat) : List UopWord := (progInstrs p nk nr).filterMap uopWordOf

/-- The nine programs of the three variants (R208). -/
def allPrograms : List (Phase × Nat × Nat) :=
  [(.kexp, 4, 10), (.enc, 4, 10), (.dec, 4, 10), (.kexp, 6, 12), (.enc, 6, 12), (.dec, 6, 12), (.kexp, 8, 14),
    (.enc, 8, 14), (.dec, 8, 14)]

/-- A place where some program of the list issues the word u: PHASE, Nk, Nr and UPC. -/
def findUop (u : UopWord) : List (Phase × Nat × Nat) → Option (Phase × Nat × Nat × Nat)
  | [] => none
  | (p, nk, nr) :: rest =>
    match (prog p nk nr).findIdx? (fun x => x == u) with
    | some k => some (p, nk, nr, k)
    | none => findUop u rest

end Sys2Proof.Machine
end

