-- ==== Sys2Proof/Machine/Sequencer.lean ====
section
/-! DEFINITION. The round sequencer: a uop step issues the uop at UPC, executes it and moves UPC or completes
(43_cipher_driver.md R207, R211); an engine step is one uop step, or more or none where the latency parameter asks for it
(00_scope.md R11, 43_cipher_driver.md R208, R212, 70_reset_and_hazards.md R281). -/

namespace Sys2Proof.Machine

/-- `prog[UPC]` of PROG(PHASE, OP_NK, OP_NR) (R207). -/
def fetchUop (s : State) : Option UopWord :=
  (prog s.phase s.opNk.toNat s.opNr.toNat)[s.upc.toNat]?

/-- `if UPC + 1 == len(prog): complete() else: UPC <- UPC + 1`, in the step of the uop (R207).  No uop writes PHASE, UPC,
OP_NK or OP_NR, and complete writes nothing a uop writes, so doing it after the uop is doing it at once (R15). -/
def advance (s : State) : State :=
  if s.upc.toNat + 1 = (prog s.phase s.opNk.toNat s.opNr.toNat).length then s.complete else s.nextUop

/-- `engine_step()` of R207: exactly one uop. -/
def uopStep (s : State) : Result :=
  match fetchUop s with
  | none => .refused .upcPastProgram
  | some u =>
    match decode (.uop u) with
    | .error _ => .refused .reservedUop
    | .ok i => andThen (exec i s) advance

/-- n + 1 uops in one engine step, in program order ("An implementation may fuse several consecutive uops", R208). -/
def uopSteps : Nat → State → Result
  | 0, s => uopStep s
  | n + 1, s => thenDo (uopStep s) (uopSteps n)

/-- The uops from UPC to the end of the program. -/
def uopsLeft (s : State) : Nat := (prog s.phase s.opNk.toNat s.opNr.toNat).length - s.upc.toNat

/-- One engine step, so that the command completes in the step in which its latency ends (R281), and the completion is in the
step of the last uop (R207): the last engine step runs all uops left; an earlier one runs one uop, or none when only the
last is left.  Where the latency is the length of the program each engine step is exactly one uop, as R207 has it; which
uops share a step otherwise no host can observe (R212; notes/assumptions/4.md). -/
def engineStep (s : State) : Result :=
  if s.stepsLeft ≤ 1 then uopSteps (uopsLeft s - 1) s
  else if uopsLeft s = 1 then .next s.tick
  else andThen (uopStep s) State.tick

/-- The first pending action waits one engine step longer. -/
def delayTurns : List HostTurn → List HostTurn
  | [] => []
  | t :: rest => { t with wait := t.wait + 1 } :: rest

end Sys2Proof.Machine
end

