-- ==== Sys2Proof/Machine/Step.lean ====
section
/-! DEFINITION. One step of the machine: a host action or an engine step, as the pending actions say
(10_state.md R30; 70_reset_and_hazards.md R282), and where a given word is made the next to run. -/

namespace Sys2Proof.Machine

/-- One step of one of the two agents (R30).  While BUSY, the engine steps until the first pending action has waited its
engine steps; with nothing pending it always steps.  The pending actions are finitely many, and a POLL that goes on leaves
the engine a step before it reads again, so a busy engine steps after finitely many host steps (R282;
notes/assumptions/5.md).  An IDLE engine has no step (R207), so the next pending action follows at once. -/
def step (s : State) : Host.Outcome State Fault Refusal :=
  match s.turns with
  | [] => if s.busy then engineStep s else .refused .quiescent
  | t :: rest =>
    if s.busy && decide (0 < t.wait) then engineStep (s.setTurns ({ t with wait := t.wait - 1 } :: rest))
    else hostStep t.act (s.setTurns rest)

/-- s with the word w the next to run.  A word of 32 bits is the value of a host write to CMD that arrives next (R34).  A
uop word is issued by the sequencer from a micro-program, which no write can change (20_memory.md R82): PHASE, OP_NK, OP_NR
and UPC are set to a place where a program holds it, the current program first, with one engine step to come for each
uop left, so that the next one runs exactly that uop, and a pending host action waits one engine step longer.  Where no
program holds it (30_encoding.md R109, R110) UPC is set past the program, and step refuses. -/
def State.withFetchWord (s : State) (nbits w : Nat) : State :=
  if nbits = 32 then
    { s with turns := ⟨0, .write (s.baseAddr + 0x04) 4 (BitVec.ofNat 32 w)⟩ :: s.turns }
  else
    match findUop (BitVec.ofNat 12 w) ((s.phase, s.opNk.toNat, s.opNr.toNat) :: allPrograms) with
    | some (p, nk, nr, k) =>
      { s with
        phase := p, opNk := BitVec.ofNat 4 nk, opNr := BitVec.ofNat 4 nr, upc := BitVec.ofNat 6 k
        stepsLeft := (prog p nk nr).length - k
        turns := delayTurns s.turns }
    | none => { s with phase := .enc, upc := 63#6, turns := delayTurns s.turns }

end Sys2Proof.Machine
end

