-- ==== Sys2Proof/Machine/HostProgram.lean ====
section
/-! DEFINITION. Host programs (30_encoding.md R113, R114): the lines WR, RD, POLL, the pseudo-instructions with their
expansions, and the host actions they stand for. -/

namespace Sys2Proof.Machine

/-- One line of a host program; a register name is its offset (`Reg.offset`), `@0x..` a raw one (R113). -/
inductive Line where
  | wr (off : BitVec 8) (v : Word)
  | rd (off : BitVec 8)
  | poll (off : BitVec 8) (mask value : Word)
  deriving DecidableEq, Repr

/-- `offset(reg)` (R32, R113). -/
def Reg.offset : Reg → BitVec 8
  | .ctrl => 0x00#8
  | .cmd => 0x04#8
  | .status => 0x08#8
  | .key k => BitVec.ofNat 8 (0x10 + 4 * k.val)
  | .din k => BitVec.ofNat 8 (0x30 + 4 * k.val)
  | .dout k => BitVec.ofNat 8 (0x40 + 4 * k.val)

/-- The transaction a line stands for, on an engine at `base`; a POLL reads again after `gap + 1` engine steps (R113). -/
def Line.action (base gap : Nat) : Line → HostAction
  | .wr off v => .write (base + off.toNat) 4 v
  | .rd off => .read (base + off.toNat) 4
  | .poll off mask value => .poll (base + off.toNat) mask value gap

/-- `SETCTRL ks, kl, bl` (R114): `WR CTRL, {0x00, bl, kl, 0b000000, ks}`. -/
def setCtrl (ks : BitVec 2) (kl bl : Byte) : List Line :=
  [.wr (Reg.offset .ctrl) (0x00#8 ++ bl ++ kl ++ 0b000000#6 ++ ks)]

/-- The writes of a list of words to the registers from `off` on. -/
def writeWords : BitVec 8 → List Word → List Line
  | _, [] => []
  | off, v :: rest => .wr off v :: writeWords (off + 4#8) rest

/-- `SETKEY k0, ..., k(n-1)` (R114).  DESIGN CHOICE, unsafe: for n > 8, where R113 names no KEY8, the words go on to the offsets
after KEY7, the ninth to DIN0 (notes/assumptions/16.md). -/
def setKey (ks : List Word) : List Line := writeWords (Reg.offset (.key 0)) ks

/-- `SETBLK d0, d1, d2, d3` (R114). -/
def setBlk (d0 d1 d2 d3 : Word) : List Line := writeWords (Reg.offset (.din 0)) [d0, d1, d2, d3]

/-- `GETBLK` (R114). -/
def getBlk : List Line :=
  [.rd (Reg.offset (.dout 0)), .rd (Reg.offset (.dout 1)), .rd (Reg.offset (.dout 2)), .rd (Reg.offset (.dout 3))]

/-- `WAIT`: `POLL STATUS, 0x00000001, 0x00000000` (R114). -/
def waitIdle : List Line := [.poll (Reg.offset .status) 0x00000001#32 0x00000000#32]

/-- `CHECK`: `RD STATUS` (R114). -/
def checkStatus : List Line := [.rd (Reg.offset .status)]

/-- What CHECK requires of the STATUS word it read: DONE = 1 and ERR = 0 (R114). -/
def checkPasses (status : Word) : Bool := status.getLsbD 2 && decide (status.extractLsb' 4 4 = 0#4)

/-- `RUN cmd`: `WR CMD, cmd`; WAIT; CHECK (R114). -/
def runCommand (cmd : Word) : List Line := [.wr (Reg.offset .cmd) cmd] ++ waitIdle ++ checkStatus

/-- A host program as pending actions, each `wait` engine steps after the one before it. -/
def hostTurns (base wait gap : Nat) (lines : List Line) : List HostTurn :=
  lines.map fun l => { wait := wait, act := l.action base gap }

end Sys2Proof.Machine
end

