-- ==== Sys2Proof/Machine/Cipher.lean ====
section
/-! DEFINITION. The atomic view of a command (43_cipher_driver.md R212): the pure functions KeyExpansion
(42_key_expansion.md R189), Cipher and InvCipher (R213).  No step runs them; the claims compare the engine's uop by uop
runs with them. -/

namespace Sys2Proof.Machine

/-- The first n words of `KeyExpansion(K, Nk, Nr)` (R189): word i is K[i] for i < Nk, the U_KGEN i value otherwise. -/
def scheduleWords (k : KeyRegs) (nk : Nat) : Nat → List Word
  | 0 => []
  | i + 1 =>
    let ws := scheduleWords k nk i
    ws ++ [if i < nk then keyAt k i else kgenWord nk i (ws.getD (i - 1) 0#32) (ws.getD (i - nk) 0#32)]

/-- `KeyExpansion(K, Nk, Nr)`: the words w[0 .. 4*Nr+3] (R189, R182). -/
def keyExpansion (k : KeyRegs) (nk nr : Nat) : List Word := scheduleWords k nk (4 * nr + 4)

/-- `s <- SB(s); s <- SR(s); s <- MC(s); s <- ARK(s, rnd)` (R213). -/
def cipherRound (w : KeyStore) (s : SReg) (rnd : Nat) : SReg :=
  addRoundKey w rnd (mixColumns (shiftRows (subBytes s)))

/-- `s <- ISR(s); s <- ISB(s); s <- ARK(s, rnd); s <- IMC(s)` (R213). -/
def invCipherRound (w : KeyStore) (s : SReg) (rnd : Nat) : SReg :=
  invMixColumns (addRoundKey w rnd (invSubBytes (invShiftRows s)))

/-- The round numbers `1..Nr-1` in order (R213). -/
def middleRounds (nr : Nat) : List Nat := (List.range (nr - 1)).map (fun j => j + 1)

/-- The state at the end of Cipher (R213). -/
def cipherState (inp : Block) (w : KeyStore) (nr : Nat) : SReg :=
  addRoundKey w nr
    (shiftRows (subBytes ((middleRounds nr).foldl (cipherRound w) (addRoundKey w 0 (sregOfBlock inp)))))

/-- `Cipher(in, w, Nr)` (R213). -/
def cipher (inp : Block) (w : KeyStore) (nr : Nat) : Block := blockOfSreg (cipherState inp w nr)

/-- The state at the end of InvCipher (R213). -/
def invCipherState (inp : Block) (w : KeyStore) (nr : Nat) : SReg :=
  addRoundKey w 0
    (invSubBytes (invShiftRows
      ((middleRounds nr).reverse.foldl (invCipherRound w) (addRoundKey w nr (sregOfBlock inp)))))

/-- `InvCipher(in, w, Nr)` (R213). -/
def invCipher (inp : Block) (w : KeyStore) (nr : Nat) : Block := blockOfSreg (invCipherState inp w nr)

end Sys2Proof.Machine
end

