-- ==== Sys2Proof/WellFormed.lean ====
section
/-! DEFINITION. The operand values an instruction may carry: the IDX column of the uop opcode map (30_encoding.md R108).
The narrower range that holds while a command runs (R109, it depends on OP_NK and OP_NR) is `idxInRange` of
Machine/Operands.lean. -/

namespace Sys2Proof

/-- R108, column IDX: U_ARK round 0..14, U_KLOAD word 0..7, U_KGEN word 4..59; the other rows carry no operand. -/
def Instr.wellFormed : Instr → Bool
  | .uArk rnd => decide (rnd.toNat ≤ 14)
  | .uKload i => decide (i.toNat ≤ 7)
  | .uKgen i => decide (4 ≤ i.toNat) && decide (i.toNat ≤ 59)
  | .nop => true
  | .keyexp => true
  | .encrypt => true
  | .decrypt => true
  | .uLoad => true
  | .uSb => true
  | .uSr => true
  | .uMc => true
  | .uIsb => true
  | .uIsr => true
  | .uImc => true
  | .uStore => true

end Sys2Proof
end

