-- ==== Sys2Proof/Safety.lean ====
section
/-! DEFINITION. What counts as a good state and a good run, in the terms the claims use: the invariant of the control
state, the invariant of the key schedule, the invariant of the datapath, and the pairs of states that differ only in data. -/

namespace Sys2Proof.Machine

/-- The latched operands are those of the variant v (10_state.md R50, 30_encoding.md R104). -/
def Latched (s : State) (v : Variant) : Prop := s.opNk.toNat = v.nk ∧ s.opNr.toNat = v.nr

/-- W holds, from word Nk up to but not including word n, what the word generator makes of the words before
(42_key_expansion.md R184). -/
def ScheduleTo (nk n : Nat) (w : KeyStore) : Prop :=
  ∀ i, nk ≤ i → i < n → wAt w i = kgenWord nk i (wAt w (i - 1)) (wAt w (i - nk))

/-- STATUS.ERR is one of the codes 0 .. 5 (10_state.md R39) and STATUS.KVAR names a variant (R40). -/
def StatusLegal (s : State) : Prop := s.err.toNat ≤ 5 ∧ ∃ v, variantOf s.kvar = some v

/-- Each latency parameter is at least 1 (R11), and so is what is left of it while BUSY (R281). -/
def LatencyLegal (s : State) : Prop :=
  (∀ p v, p ≠ .idle → 1 ≤ s.lat.steps p v) ∧ (s.phase ≠ .idle → 1 ≤ s.stepsLeft)

/-- PHASE and UPC (R49): IDLE with UPC 0, or a place inside the program of a variant, with DONE = 0 and ERR = 0 since
acceptance (43_cipher_driver.md R200). -/
def SequencerLegal (s : State) : Prop :=
  (s.phase = .idle → s.upc = 0#6) ∧
  (s.phase ≠ .idle → s.done = false ∧ s.err = 0#4 ∧
    ∃ v, Latched s v ∧ s.upc.toNat < (progInstrs s.phase v.nk v.nr).length)

/-- KEY_VALID against PHASE (R36, R204, R205): 0 throughout a KEYEXP; 1 throughout an ENCRYPT or DECRYPT, which run the
variant in KVAR (R215). -/
def KeyPhaseLegal (s : State) : Prop :=
  (s.phase = .kexp → s.keyValid = false) ∧
  (s.phase = .enc ∨ s.phase = .dec → s.keyValid = true ∧ ∃ v, variantOf s.kvar = some v ∧ Latched s v)

/-- "STATUS.KEY_VALID is 1 when W holds a complete key schedule for the variant in STATUS.KVAR" (R36); during a KEYEXP the
words below UPC are already those of the schedule of KEY (R183, R184). -/
def ScheduleLegal (s : State) : Prop :=
  (s.keyValid = true → ∃ v, variantOf s.kvar = some v ∧ ScheduleTo v.nk (4 * v.nr + 4) s.w) ∧
  (s.phase = .kexp →
    ScheduleTo s.opNk.toNat s.upc.toNat s.w ∧
    ∀ i, i < s.opNk.toNat → i < s.upc.toNat → wAt s.w i = keyAt s.key i)

/-- The invariant of the engine. -/
def State.Inv (s : State) : Prop :=
  StatusLegal s ∧ LatencyLegal s ∧ SequencerLegal s ∧ KeyPhaseLegal s ∧ ScheduleLegal s

/-- The next step is the engine's: it is BUSY and no host action is due (10_state.md R30). -/
def EngineDue (s : State) : Prop := s.phase ≠ .idle ∧ ∀ u rest, s.turns = u :: rest → 0 < u.wait

/-- The step from s to t is an engine step: one is due, and it leads to t (R30, R207). -/
def ByEngine (s t : State) : Prop := EngineDue s ∧ ∃ ts, engineStep (s.setTurns ts) = .next t

/-- The step from s to t is the reset input (70_reset_and_hazards.md R270): it is the first pending action, and due. -/
def ByReset (s t : State) : Prop :=
  ∃ n rest, s.turns = ⟨n, .reset⟩ :: rest ∧ (s.phase = .idle ∨ n = 0) ∧ t = (s.setTurns rest).resetInput

/-- What one uop of ENCRYPT or DECRYPT does to S, as a function of S, DIN and W alone (41_round_transforms.md R150). -/
def datapathUop (din : Block) (w : KeyStore) (s : SReg) (i : Instr) : SReg :=
  match i with
  | .uLoad => sregOfBlock din
  | .uSb => subBytes s
  | .uSr => shiftRows s
  | .uMc => mixColumns s
  | .uArk rnd => addRoundKey w rnd.toNat s
  | .uIsb => invSubBytes s
  | .uIsr => invShiftRows s
  | .uImc => invMixColumns s
  | .nop => s
  | .keyexp => s
  | .encrypt => s
  | .decrypt => s
  | .uStore => s
  | .uKload _ => s
  | .uKgen _ => s

/-- S after the uops of a list, started from any S: U_LOAD, the first one, overwrites it entirely (R209). -/
def datapathRun (din : Block) (w : KeyStore) (is : List Instr) : SReg :=
  is.foldl (datapathUop din w) (sregOfBlock din)

/-- While an ENCRYPT or DECRYPT runs, S is what the uops below UPC make of DIN and W, whatever the host did between the
engine's steps (20_memory.md R82, 43_cipher_driver.md R212). -/
def DatapathInv (s : State) : Prop :=
  (s.phase = .enc ∨ s.phase = .dec) → 0 < s.upc.toNat →
    s.sreg = datapathRun s.din s.w ((progInstrs s.phase s.opNk.toNat s.opNr.toNat).take s.upc.toNat)

/-- Two states that may differ in data only: KEY, DIN, DOUT, S, W and the data of the last response. -/
def SameControl (s t : State) : Prop :=
  s.ksize = t.ksize ∧ s.keylen = t.keylen ∧ s.blklen = t.blklen ∧ s.keyValid = t.keyValid ∧ s.done = t.done ∧
  s.ovr = t.ovr ∧ s.err = t.err ∧ s.kvar = t.kvar ∧ s.phase = t.phase ∧ s.upc = t.upc ∧ s.opNk = t.opNk ∧
  s.opNr = t.opNr ∧ s.basePage = t.basePage ∧ s.turns = t.turns ∧ s.resets = t.resets ∧
  s.lat = t.lat ∧ s.stepsLeft = t.stepsLeft

/-- The actions whose outcome for the control state does not hang on data: all but a POLL of DIN or DOUT, by which a host
program makes its own next transactions depend on a block. -/
def noDataPoll (s : State) (a : HostAction) : Bool :=
  match a with
  | .read _ _ => true
  | .write _ _ _ => true
  | .poll addr _ _ _ =>
    match selectReg s addr 4 with
    | some (.din _) => false
    | some (.dout _) => false
    | some .ctrl => true
    | some .cmd => true
    | some .status => true
    | some (.key _) => true
    | none => true
  | .reset => true

/-- The outcomes of two runs: the same stop, or next states with the same control. -/
def SameControlResult (a b : Result) : Prop :=
  match a, b with
  | .next s, .next t => SameControl s t
  | .refused p, .refused q => p = q
  | .fault _, _ => False
  | _, .fault _ => False
  | .next _, .refused _ => False
  | .refused _, .next _ => False

end Sys2Proof.Machine
end

