-- ==== Sys2Proof/Certificates/Slice0/Obligations.lean ====
section
/-! DEFINITION. The statements about the model, for the provers.  A next state written `{ s with … }` states the frame too:
every field not named is unchanged, the flags, the special registers and the host's pending actions among them.  The engine
has no byte memory (20_memory.md R70): W, KEY, DIN and DOUT are fields. -/

open Sys2Proof Sys2Proof.Machine

/-! ## Encodings -/

/-- 30_encoding.md R115: the word of a micro-operation is `(IDX << 4) | OPC`, for the three that take an index and (with
index 0) the eight that take none; with the two examples of R115. -/
def Obligations.UopWordIsIndexThenOpcode : Prop :=
  (∀ idx : Idx,
    encode (.uArk idx) = .uop ((idx.setWidth 12 <<< 4) ||| 0x4#12) ∧
    encode (.uKload idx) = .uop ((idx.setWidth 12 <<< 4) ||| 0x9#12) ∧
    encode (.uKgen idx) = .uop ((idx.setWidth 12 <<< 4) ||| 0xA#12)) ∧
  encode .uLoad = .uop 0x000#12 ∧ encode .uSb = .uop 0x001#12 ∧ encode .uSr = .uop 0x002#12 ∧
  encode .uMc = .uop 0x003#12 ∧ encode .uIsb = .uop 0x005#12 ∧ encode .uIsr = .uop 0x006#12 ∧
  encode .uImc = .uop 0x007#12 ∧ encode .uStore = .uop 0x008#12 ∧
  encode (.uArk 10#6) = .uop 0x0A4#12 ∧ encode (.uKgen 59#6) = .uop 0x3BA#12

/-- A few words written out from R101 and from the rules' own "Encoding" lines decode to the instruction they stand for. -/
def Obligations.SpecWordsDecode : Prop :=
  decodeTableWord 32 0x00000000 = some .nop ∧ decodeTableWord 32 0x00000001 = some .keyexp ∧
  decodeTableWord 32 0x00000002 = some .encrypt ∧ decodeTableWord 32 0x00000003 = some .decrypt ∧
  decodeTableWord 32 0x00000102 = none ∧
  decodeTableWord 16 0x000 = some .uLoad ∧ decodeTableWord 16 0x001 = some .uSb ∧
  decodeTableWord 16 0x002 = some .uSr ∧ decodeTableWord 16 0x003 = some .uMc ∧
  decodeTableWord 16 0x0E4 = some (.uArk 14#6) ∧ decodeTableWord 16 0x005 = some .uIsb ∧
  decodeTableWord 16 0x006 = some .uIsr ∧ decodeTableWord 16 0x007 = some .uImc ∧
  decodeTableWord 16 0x008 = some .uStore ∧ decodeTableWord 16 0x079 = some (.uKload 7#6) ∧
  decodeTableWord 16 0x04A = some (.uKgen 4#6) ∧ decodeTableWord 16 0x00B = none

/-- Decoding an encoded instruction gives it back, with every value of its operand; and each encoded word that decodes is
the encoding of what it decodes to, so no bit of it is dropped. -/
def Obligations.DecodeAndEncodeAgree : Prop :=
  (∀ i, decode (encode i) = .ok i) ∧ ∀ e i, decode e = .ok i → encode i = e

/-- R101: the four CMD values and no other are commands. -/
def Obligations.FourCommandWords : Prop :=
  ∀ (v : Word) (i : Instr),
    decode (.cmd v) = .ok i ↔
      (v = 0#32 ∧ i = .nop) ∨ (v = 1#32 ∧ i = .keyexp) ∨ (v = 2#32 ∧ i = .encrypt) ∨ (v = 3#32 ∧ i = .decrypt)

/-- R110: exactly the reserved codes 0xB..0xF, a non-zero IDX on an operation that takes none and a non-zero bit 11:10 are
refused, and no micro-program issues a refused word. -/
def Obligations.ReservedUopWordsRefused : Prop :=
  (∀ u : UopWord,
    (∃ e, decode (.uop u) = .error e) ↔
      u.extractLsb' 10 2 ≠ 0#2 ∨ 0xB ≤ (u.extractLsb' 0 4).toNat ∨
        (u.extractLsb' 4 6 ≠ 0#6 ∧ u.extractLsb' 0 4 ≠ 0x4#4 ∧ u.extractLsb' 0 4 ≠ 0x9#4 ∧
          u.extractLsb' 0 4 ≠ 0xA#4)) ∧
  ∀ (v : Variant) (p : Phase), ∀ u ∈ prog p v.nk v.nr, ∃ i, decode (.uop u) = .ok i

/-- R109: within the micro-programs IDX is in range, and outside that range the model refuses. -/
def Obligations.IdxRangeKeptAndRefusedOutside : Prop :=
  (∀ (v : Variant) (p : Phase) (idx : Idx),
    (.uArk idx ∈ progInstrs p v.nk v.nr → idx.toNat ≤ v.nr) ∧
    (.uKload idx ∈ progInstrs p v.nk v.nr → idx.toNat < v.nk) ∧
    (.uKgen idx ∈ progInstrs p v.nk v.nr → v.nk ≤ idx.toNat ∧ idx.toNat ≤ 4 * v.nr + 3)) ∧
  ∀ (s : State) (idx : Idx),
    (s.opNr.toNat < idx.toNat → exec (.uArk idx) s = .refused .idxOutOfRange) ∧
    (s.opNk.toNat ≤ idx.toNat → exec (.uKload idx) s = .refused .idxOutOfRange) ∧
    (idx.toNat < s.opNk.toNat ∨ 4 * s.opNr.toNat + 3 < idx.toNat →
      exec (.uKgen idx) s = .refused .idxOutOfRange)

/-! ## Commands -/

/-- R203: NOP sets DONE and clears ERR and OVR, and nothing else; while BUSY it is an overrun; with the example of R203. -/
def Obligations.NopClearsTheFlags : Prop :=
  decode (.cmd 0x00000000#32) = .ok .nop ∧
  (∀ s : State, s.phase = .idle →
    exec .nop s = .next { s with done := true, err := 0#4, ovr := false }) ∧
  (∀ s : State, s.phase ≠ .idle → exec .nop s = .next { s with ovr := true }) ∧
  ∀ s : State, s.phase = .idle → statusWord s = 0x0000001E#32 →
    ∃ t, exec .nop s = .next t ∧ statusWord t = 0x00000006#32

/-- R204, acceptance of a valid KEYEXP: KEY_VALID, DONE, ERR and OVR are cleared, the operands latched from CTRL.KSIZE, and
the program KEXP started, with LAT_KEYEXP(v) engine steps to come (R281); KEY, CTRL, W and KVAR keep their values. -/
def Obligations.KeyexpStarts : Prop :=
  ∀ (s : State) (v : Variant), s.phase = .idle → variantOf s.ksize = some v → s.keylen.toNat = 4 * v.nk →
    exec .keyexp s = .next
      { s with
        ovr := false, done := false, err := 0#4, keyValid := false, opNk := BitVec.ofNat 4 v.nk
        opNr := BitVec.ofNat 4 v.nr, phase := .kexp, upc := 0#6, stepsLeft := s.lat.keyexp.at v }

/-- R242, R244: a KEYEXP with KSIZE = 0b11 ends with BAD_VARIANT, one whose KEYLEN is not 16, 24 or 32 for KSIZE 0, 1 or 2
with INVALID_KEY_LENGTH, and nothing but DONE, ERR and OVR changes; with the source's example. -/
def Obligations.KeyexpErrors : Prop :=
  (∀ s : State, s.phase = .idle → s.ksize = 0b11#2 →
    exec .keyexp s = .next { s with ovr := false, done := true, err := 3#4 }) ∧
  (∀ s : State, s.phase = .idle →
    (s.ksize = 0b00#2 ∧ s.keylen.toNat ≠ 16 ∨ s.ksize = 0b01#2 ∧ s.keylen.toNat ≠ 24 ∨
      s.ksize = 0b10#2 ∧ s.keylen.toNat ≠ 32) →
    exec .keyexp s = .next { s with ovr := false, done := true, err := 1#4 }) ∧
  ∀ s : State, s.phase = .idle → s.ksize = 0b00#2 → s.keylen = 15#8 →
    ∃ t, exec .keyexp s = .next t ∧ t.err = 1#4 ∧ t.done = true ∧ t.phase = .idle

/-- R205, R206, acceptance of a valid ENCRYPT or DECRYPT: DONE, ERR and OVR are cleared, the operands latched from
STATUS.KVAR (not from CTRL.KSIZE, R215), the program started, with LAT_ENC(v) or LAT_DEC(v) engine steps to come (R281);
DOUT, W, KEY_VALID and KVAR keep their values. -/
def Obligations.EncryptDecryptStart : Prop :=
  ∀ (s : State) (v : Variant), s.phase = .idle → s.keyValid = true → s.blklen = 16#8 →
    variantOf s.kvar = some v →
    exec .encrypt s = .next
      { s with
        ovr := false, done := false, err := 0#4, opNk := BitVec.ofNat 4 v.nk, opNr := BitVec.ofNat 4 v.nr
        phase := .enc, upc := 0#6, stepsLeft := s.lat.enc.at v } ∧
    exec .decrypt s = .next
      { s with
        ovr := false, done := false, err := 0#4, opNk := BitVec.ofNat 4 v.nk, opNr := BitVec.ofNat 4 v.nr
        phase := .dec, upc := 0#6, stepsLeft := s.lat.dec.at v }

/-- R243, R245: an ENCRYPT or DECRYPT without a key ends with NO_KEY whatever BLKLEN, one with a key and BLKLEN ≠ 16 with
INVALID_BLOCK_LENGTH, and nothing but DONE, ERR and OVR changes; with the source's example. -/
def Obligations.EncryptDecryptErrors : Prop :=
  (∀ s : State, s.phase = .idle → s.keyValid = false →
    exec .encrypt s = .next { s with ovr := false, done := true, err := 4#4 } ∧
    exec .decrypt s = .next { s with ovr := false, done := true, err := 4#4 }) ∧
  (∀ s : State, s.phase = .idle → s.keyValid = true → s.blklen.toNat ≠ 16 →
    exec .encrypt s = .next { s with ovr := false, done := true, err := 2#4 } ∧
    exec .decrypt s = .next { s with ovr := false, done := true, err := 2#4 }) ∧
  ∀ s : State, s.phase = .idle → s.keyValid = true → s.blklen = 15#8 →
    ∃ t, exec .encrypt s = .next t ∧ t.err = 2#4

/-- R201: a CMD write while PHASE ≠ IDLE sets OVR and does nothing else, whatever its value, and gets an OK response. -/
def Obligations.OverrunOnlySetsOvr : Prop :=
  ∀ (s : State) (v : Word), s.phase ≠ .idle →
    writeCmd v s = .next { s with ovr := true } ∧
    hostStep (.write (s.baseAddr + 0x04) 4 v) s = .next { s with ovr := true, resp := .okWrite } ∧
    exec .nop s = .next { s with ovr := true } ∧ exec .keyexp s = .next { s with ovr := true } ∧
    exec .encrypt s = .next { s with ovr := true } ∧ exec .decrypt s = .next { s with ovr := true }

/-- R102, R246: an accepted CMD write of a value above 3 ends with ILLEGAL_CMD, and nothing but the STATUS updates happens;
written while BUSY such a value is an overrun and is not reported. -/
def Obligations.IllegalCommandFails : Prop :=
  ∀ (s : State) (v : Word), 4 ≤ v.toNat →
    (s.phase = .idle → writeCmd v s = .next { s with ovr := false, done := true, err := 5#4 }) ∧
    (s.phase ≠ .idle → writeCmd v s = .next { s with ovr := true })

/-- R248: every CMD write while IDLE reports in ERR the first check that fails, in the order of R248, and 0 when all pass.
(The premise on KVAR is the invariant `StatusLegal`.) -/
def Obligations.FirstFailingCheckIsReported : Prop :=
  ∀ (s : State) (v : Word), s.phase = .idle → StatusLegal s →
    ∃ t, writeCmd v s = .next t ∧
      t.err =
        if 4 ≤ v.toNat then 5#4
        else if v = 0#32 then 0#4
        else if v = 1#32 then
          if s.ksize = 0b11#2 then 3#4
          else if s.ksize = 0b00#2 ∧ s.keylen.toNat ≠ 16 ∨ s.ksize = 0b01#2 ∧ s.keylen.toNat ≠ 24 ∨
            s.ksize = 0b10#2 ∧ s.keylen.toNat ≠ 32 then 1#4
          else 0#4
        else if s.keyValid = false then 4#4
        else if s.blklen.toNat ≠ 16 then 2#4
        else 0#4

/-- R249: a command error is precise: whatever was written to CMD, an outcome with ERR ≠ 0 changes DONE, ERR and OVR and
nothing else, in particular not PHASE, DOUT, W, KEY_VALID or KVAR. -/
def Obligations.CommandErrorsArePrecise : Prop :=
  ∀ (s t : State) (v : Word), s.phase = .idle → writeCmd v s = .next t → t.err ≠ 0#4 →
    t = { s with done := true, err := t.err, ovr := false }

/-! ## Round transforms -/

/-- R209: U_LOAD puts the block in DIN into S, column c from DIN[c], and changes nothing else; with the example of R209. -/
def Obligations.LoadCopiesDin : Prop :=
  decode (.uop 0x000#12) = .ok .uLoad ∧
  (∀ s : State, ∃ x, exec .uLoad s = .next { s with sreg := x } ∧ ∀ r c, cell x r c = byteOf s.din[c] r) ∧
  ∀ s : State, s.din = #v[0x00112233#32, 0x44556677#32, 0x8899aabb#32, 0xccddeeff#32] →
    ∃ x, exec .uLoad s = .next { s with sreg := x } ∧
      cell x 0 0 = 0x00#8 ∧ cell x 1 0 = 0x11#8 ∧ cell x 2 0 = 0x22#8 ∧ cell x 3 0 = 0x33#8 ∧
      cell x 0 1 = 0x44#8 ∧ cell x 0 2 = 0x88#8 ∧ cell x 0 3 = 0xcc#8

/-- R210: U_STORE puts S into DOUT, the four words together, and changes nothing else; it is the last uop of every ENC and
DEC program. -/
def Obligations.StoreCopiesToDout : Prop :=
  decode (.uop 0x008#12) = .ok .uStore ∧
  (∀ s : State, ∃ x, exec .uStore s = .next { s with dout := x } ∧
    ∀ c : Fin 4, x[c] = wordOf (cell s.sreg 0 c) (cell s.sreg 1 c) (cell s.sreg 2 c) (cell s.sreg 3 c)) ∧
  ∀ v : Variant, (progInstrs .enc v.nk v.nr).getLast? = some .uStore ∧
    (progInstrs .dec v.nk v.nr).getLast? = some .uStore

/-- R151: U_SB replaces every byte of S by sbox of it and changes nothing else; with the corner cases and the example. -/
def Obligations.SubBytesUop : Prop :=
  decode (.uop 0x001#12) = .ok .uSb ∧
  (∀ s : State, ∃ x, exec .uSb s = .next { s with sreg := x } ∧ ∀ r c, cell x r c = sbox (cell s.sreg r c)) ∧
  (∀ r c, cell (subBytes (sregOf fun _ _ => 0x00#8)) r c = 0x63#8) ∧
  (∀ r c, cell (subBytes (sregOf fun _ _ => 0xff#8)) r c = 0x16#8) ∧
  blockOfSreg (subBytes (sregOfBlock #v[0x00010203#32, 0x04050607#32, 0x08090a0b#32, 0x0c0d0e0f#32])) =
    #v[0x637c777b#32, 0xf26b6fc5#32, 0x3001672b#32, 0xfed7ab76#32]

/-- R152: U_ISB replaces every byte of S by inv_sbox of it and changes nothing else; with the corner cases and the example. -/
def Obligations.InvSubBytesUop : Prop :=
  decode (.uop 0x005#12) = .ok .uIsb ∧
  (∀ s : State, ∃ x, exec .uIsb s = .next { s with sreg := x } ∧ ∀ r c, cell x r c = invSbox (cell s.sreg r c)) ∧
  (∀ r c, cell (invSubBytes (sregOf fun _ _ => 0x63#8)) r c = 0x00#8) ∧
  (∀ x : SReg, invSubBytes (subBytes x) = x) ∧
  blockOfSreg (invSubBytes (sregOfBlock #v[0x00010203#32, 0x04050607#32, 0x08090a0b#32, 0x0c0d0e0f#32])) =
    #v[0x52096ad5#32, 0x3036a538#32, 0xbf40a39e#32, 0x81f3d7fb#32]

/-- R153: U_SR rotates row r of S left by r and changes nothing else; with the corner cases, the
permutation P = (0, 5, 10, 15, 4, …) of the block's bytes and the example. -/
def Obligations.ShiftRowsUop : Prop :=
  decode (.uop 0x002#12) = .ok .uSr ∧
  (∀ s : State, ∃ x, exec .uSr s = .next { s with sreg := x } ∧
    ∀ r c d : Fin 4, d.val = (c.val + r.val) % 4 → cell x r c = cell s.sreg r d) ∧
  (∀ (x : SReg) (c : Fin 4), cell (shiftRows x) 0 c = cell x 0 c) ∧
  (∀ x : SReg, (∀ r c d, cell x r c = cell x r d) → shiftRows x = x) ∧
  (∀ x : SReg, shiftRows (shiftRows (shiftRows (shiftRows x))) = x) ∧
  (∀ b : Block, blockOfSreg (shiftRows (sregOfBlock b)) =
    #v[wordOf (byteOf b[0] 0) (byteOf b[1] 1) (byteOf b[2] 2) (byteOf b[3] 3),
      wordOf (byteOf b[1] 0) (byteOf b[2] 1) (byteOf b[3] 2) (byteOf b[0] 3),
      wordOf (byteOf b[2] 0) (byteOf b[3] 1) (byteOf b[0] 2) (byteOf b[1] 3),
      wordOf (byteOf b[3] 0) (byteOf b[0] 1) (byteOf b[1] 2) (byteOf b[2] 3)]) ∧
  blockOfSreg (shiftRows (sregOfBlock #v[0x00010203#32, 0x04050607#32, 0x08090a0b#32, 0x0c0d0e0f#32])) =
    #v[0x00050a0f#32, 0x04090e03#32, 0x080d0207#32, 0x0c01060b#32]

/-- R154: U_ISR rotates row r of S right by r and changes nothing else; with the corner cases, the permutation
Q = (0, 13, 10, 7, 4, …) of the block's bytes and the example. -/
def Obligations.InvShiftRowsUop : Prop :=
  decode (.uop 0x006#12) = .ok .uIsr ∧
  (∀ s : State, ∃ x, exec .uIsr s = .next { s with sreg := x } ∧
    ∀ r c d : Fin 4, d.val = (c.val + 4 - r.val) % 4 → cell x r c = cell s.sreg r d) ∧
  (∀ x : SReg, invShiftRows (shiftRows x) = x) ∧
  (∀ (x : SReg) (c : Fin 4), cell (invShiftRows x) 0 c = cell x 0 c ∧
    cell (invShiftRows x) 2 c = cell (shiftRows x) 2 c) ∧
  (∀ b : Block, blockOfSreg (invShiftRows (sregOfBlock b)) =
    #v[wordOf (byteOf b[0] 0) (byteOf b[3] 1) (byteOf b[2] 2) (byteOf b[1] 3),
      wordOf (byteOf b[1] 0) (byteOf b[0] 1) (byteOf b[3] 2) (byteOf b[2] 3),
      wordOf (byteOf b[2] 0) (byteOf b[1] 1) (byteOf b[0] 2) (byteOf b[3] 3),
      wordOf (byteOf b[3] 0) (byteOf b[2] 1) (byteOf b[1] 2) (byteOf b[0] 3)]) ∧
  blockOfSreg (invShiftRows (sregOfBlock #v[0x00010203#32, 0x04050607#32, 0x08090a0b#32, 0x0c0d0e0f#32])) =
    #v[0x000d0a07#32, 0x04010e0b#32, 0x0805020f#32, 0x0c090603#32]

/-- R155: U_MC multiplies every column of S by the matrix with the rows {02,03,01,01} cyclically and changes nothing else;
with the corner case of a column of equal bytes and the example. -/
def Obligations.MixColumnsUop : Prop :=
  decode (.uop 0x003#12) = .ok .uMc ∧
  (∀ s : State, ∃ x, exec .uMc s = .next { s with sreg := x } ∧ ∀ c,
    cell x 0 c = galoisMul 0x02#8 (cell s.sreg 0 c) ^^^ galoisMul 0x03#8 (cell s.sreg 1 c) ^^^ cell s.sreg 2 c
      ^^^ cell s.sreg 3 c ∧
    cell x 1 c = cell s.sreg 0 c ^^^ galoisMul 0x02#8 (cell s.sreg 1 c) ^^^ galoisMul 0x03#8 (cell s.sreg 2 c)
      ^^^ cell s.sreg 3 c ∧
    cell x 2 c = cell s.sreg 0 c ^^^ cell s.sreg 1 c ^^^ galoisMul 0x02#8 (cell s.sreg 2 c)
      ^^^ galoisMul 0x03#8 (cell s.sreg 3 c) ∧
    cell x 3 c = galoisMul 0x03#8 (cell s.sreg 0 c) ^^^ cell s.sreg 1 c ^^^ cell s.sreg 2 c
      ^^^ galoisMul 0x02#8 (cell s.sreg 3 c)) ∧
  (∀ (x : SReg) (c : Fin 4), (∀ r, cell x r c = cell x 0 c) → ∀ r, cell (mixColumns x) r c = cell x r c) ∧
  blockOfSreg (mixColumns (sregOfBlock #v[0x00010203#32, 0x04050607#32, 0x08090a0b#32, 0x0c0d0e0f#32])) =
    #v[0x02070005#32, 0x06030401#32, 0x0a0f080d#32, 0x0e0b0c09#32] ∧
  blockOfSreg (mixColumns (sregOfBlock (Vector.replicate 4 0xdb135345#32))) = Vector.replicate 4 0x8e4da1bc#32

/-- R156: U_IMC multiplies every column of S by the inverse matrix, coefficients {0e,0b,0d,09} cyclically, and changes
nothing else; it and U_MC undo each other; with the corner case of a column of equal bytes and the example. -/
def Obligations.InvMixColumnsUop : Prop :=
  decode (.uop 0x007#12) = .ok .uImc ∧
  (∀ s : State, ∃ x, exec .uImc s = .next { s with sreg := x } ∧ ∀ c,
    cell x 0 c = galoisMul 0x0e#8 (cell s.sreg 0 c) ^^^ galoisMul 0x0b#8 (cell s.sreg 1 c)
      ^^^ galoisMul 0x0d#8 (cell s.sreg 2 c) ^^^ galoisMul 0x09#8 (cell s.sreg 3 c) ∧
    cell x 1 c = galoisMul 0x09#8 (cell s.sreg 0 c) ^^^ galoisMul 0x0e#8 (cell s.sreg 1 c)
      ^^^ galoisMul 0x0b#8 (cell s.sreg 2 c) ^^^ galoisMul 0x0d#8 (cell s.sreg 3 c) ∧
    cell x 2 c = galoisMul 0x0d#8 (cell s.sreg 0 c) ^^^ galoisMul 0x09#8 (cell s.sreg 1 c)
      ^^^ galoisMul 0x0e#8 (cell s.sreg 2 c) ^^^ galoisMul 0x0b#8 (cell s.sreg 3 c) ∧
    cell x 3 c = galoisMul 0x0b#8 (cell s.sreg 0 c) ^^^ galoisMul 0x0d#8 (cell s.sreg 1 c)
      ^^^ galoisMul 0x09#8 (cell s.sreg 2 c) ^^^ galoisMul 0x0e#8 (cell s.sreg 3 c)) ∧
  (∀ (x : SReg) (c : Fin 4), (∀ r, cell x r c = cell x 0 c) → ∀ r, cell (invMixColumns x) r c = cell x r c) ∧
  (∀ x : SReg, invMixColumns (mixColumns x) = x) ∧ (∀ x : SReg, mixColumns (invMixColumns x) = x) ∧
  blockOfSreg (invMixColumns (sregOfBlock #v[0x00010203#32, 0x04050607#32, 0x08090a0b#32, 0x0c0d0e0f#32])) =
    #v[0x0a0f080d#32, 0x0e0b0c09#32, 0x02070005#32, 0x06030401#32] ∧
  blockOfSreg (invMixColumns (sregOfBlock (Vector.replicate 4 0x8e4da1bc#32))) = Vector.replicate 4 0xdb135345#32

/-- R157: U_ARK XORs S with the four words of round key rnd and changes nothing else; with the corner cases and the
example. -/
def Obligations.AddRoundKeyUop : Prop :=
  (∀ rnd : Idx, decode (.uop ((rnd.setWidth 12 <<< 4) ||| 0x4#12)) = .ok (.uArk rnd)) ∧
  (∀ (s : State) (rnd : Idx), rnd.toNat ≤ s.opNr.toNat → rnd.toNat ≤ 14 →
    ∃ x, exec (.uArk rnd) s = .next { s with sreg := x } ∧
      ∀ q c : Fin 4, cell x q c = cell s.sreg q c ^^^ byteOf (wAt s.w (4 * rnd.toNat + c.val)) q) ∧
  (∀ (w : KeyStore) (rnd : Nat) (x : SReg), addRoundKey w rnd (addRoundKey w rnd x) = x) ∧
  (∀ (w : KeyStore) (rnd : Nat) (x : SReg), (∀ c : Fin 4, wAt w (4 * rnd + c.val) = 0#32) →
    addRoundKey w rnd x = x) ∧
  (∀ (w : KeyStore) (rnd : Nat) (x : SReg),
    (∀ q c : Fin 4, cell x q c = byteOf (wAt w (4 * rnd + c.val)) q) →
    ∀ q c, cell (addRoundKey w rnd x) q c = 0x00#8) ∧
  ∀ w : KeyStore, wAt w 0 = 0x2b7e1516#32 → wAt w 1 = 0x28aed2a6#32 → wAt w 2 = 0xabf71588#32 →
    wAt w 3 = 0x09cf4f3c#32 →
    blockOfSreg (addRoundKey w 0 (sregOfBlock #v[0x00010203#32, 0x04050607#32, 0x08090a0b#32, 0x0c0d0e0f#32])) =
      #v[0x2b7f1715#32, 0x2cabd4a1#32, 0xa3fe1f83#32, 0x05c24133#32]

/-- R159: each inverse transform undoes its transform and the other way round, U_ARK undoes itself, and the byte
substitutions commute with the row shifts. -/
def Obligations.InverseTransformLaws : Prop :=
  (∀ x : SReg, invSubBytes (subBytes x) = x) ∧ (∀ x : SReg, subBytes (invSubBytes x) = x) ∧
  (∀ x : SReg, invShiftRows (shiftRows x) = x) ∧ (∀ x : SReg, shiftRows (invShiftRows x) = x) ∧
  (∀ x : SReg, invMixColumns (mixColumns x) = x) ∧
  (∀ (w : KeyStore) (rnd : Nat) (x : SReg), addRoundKey w rnd (addRoundKey w rnd x) = x) ∧
  (∀ x : SReg, subBytes (shiftRows x) = shiftRows (subBytes x)) ∧
  ∀ x : SReg, invSubBytes (invShiftRows x) = invShiftRows (invSubBytes x)

/-! ## Key expansion -/

/-- R180, R181: RotWord moves the bytes of a word one place left, SubWord substitutes each; with their corner cases and
examples. -/
def Obligations.RotWordAndSubWord : Prop :=
  (∀ w : Word, byteOf (rotWord w) 0 = byteOf w 1 ∧ byteOf (rotWord w) 1 = byteOf w 2 ∧
    byteOf (rotWord w) 2 = byteOf w 3 ∧ byteOf (rotWord w) 3 = byteOf w 0) ∧
  (∀ w : Word, rotWord w = w.extractLsb' 0 24 ++ w.extractLsb' 24 8) ∧
  (∀ b : Byte, rotWord (wordOf b b b b) = wordOf b b b b) ∧
  (∀ w : Word, rotWord (rotWord (rotWord (rotWord w))) = w) ∧
  rotWord 0x09cf4f3c#32 = 0xcf4f3c09#32 ∧
  (∀ (w : Word) (j : Fin 4), byteOf (subWord w) j = sbox (byteOf w j)) ∧
  (∀ w : Word, subWord (rotWord w) = rotWord (subWord w)) ∧
  subWord 0x00000000#32 = 0x63636363#32 ∧ subWord 0xcf4f3c09#32 = 0x8a84eb01#32

/-- R183: U_KLOAD copies key word i to W[i], whatever its value, and changes no other word of W and nothing else. -/
def Obligations.KeyLoadUop : Prop :=
  (∀ i : Idx, decode (.uop ((i.setWidth 12 <<< 4) ||| 0x9#12)) = .ok (.uKload i)) ∧
  (∀ (s : State) (i : Idx), i.toNat < s.opNk.toNat → i.toNat ≤ 7 →
    ∃ x, exec (.uKload i) s = .next { s with w := x } ∧ wAt x i.toNat = keyAt s.key i.toNat ∧
      ∀ j, j ≠ i.toNat → wAt x j = wAt s.w j) ∧
  ∀ s : State, s.opNk = 4#4 → keyAt s.key 0 = 0x2b7e1516#32 →
    ∃ t, exec (.uKload 0#6) s = .next t ∧ wAt t.w 0 = 0x2b7e1516#32

/-- R184: U_KGEN puts W[i-Nk] XOR temp into W[i], temp by the three branches of R184, and changes no other word of W and
nothing else; with the example of R184. -/
def Obligations.KeyGenerateUop : Prop :=
  (∀ i : Idx, decode (.uop ((i.setWidth 12 <<< 4) ||| 0xA#12)) = .ok (.uKgen i)) ∧
  (∀ (s : State) (i : Idx), 4 ≤ s.opNk.toNat → s.opNk.toNat ≤ i.toNat → i.toNat ≤ 4 * s.opNr.toNat + 3 →
    i.toNat ≤ 59 →
    ∃ x, exec (.uKgen i) s = .next { s with w := x } ∧
      wAt x i.toNat =
        wAt s.w (i.toNat - s.opNk.toNat) ^^^
          (if i.toNat % s.opNk.toNat = 0 then
            subWord (rotWord (wAt s.w (i.toNat - 1))) ^^^ rcon (i.toNat / s.opNk.toNat)
          else if 6 < s.opNk.toNat ∧ i.toNat % s.opNk.toNat = 4 then subWord (wAt s.w (i.toNat - 1))
          else wAt s.w (i.toNat - 1)) ∧
      ∀ j, j ≠ i.toNat → wAt x j = wAt s.w j) ∧
  ∀ s : State, s.opNk = 4#4 → s.opNr = 10#4 → wAt s.w 0 = 0x2b7e1516#32 → wAt s.w 3 = 0x09cf4f3c#32 →
    ∃ t, exec (.uKgen 4#6) s = .next t ∧ wAt t.w 4 = 0xa0fafe17#32

/-- R189, R182: from the acceptance of a KEYEXP, with no host action pending, the engine steps of its latency fill
W[0 .. 4*Nr+3] with KeyExpansion of KEY and complete, and leave the rest of W and everything else as it was; and under every
interleaving with the host, an engine step that completes a KEYEXP leaves KeyExpansion of KEY in W. -/
def Obligations.KeyexpMakesTheSchedule : Prop :=
  (∀ (s : State) (v : Variant), s.phase = .kexp → s.upc = 0#6 → Latched s v → s.turns = [] → 1 ≤ s.stepsLeft →
    ∃ x, Host.Core.run Sys2Proof.core s.stepsLeft s = .next
        { s with
          w := x, keyValid := true, kvar := v.code, done := true, phase := .idle, upc := 0#6, stepsLeft := 0 } ∧
      (keyExpansion s.key v.nk v.nr).length = 4 * (v.nr + 1) ∧
      (∀ i, i < 4 * (v.nr + 1) → wAt x i = (keyExpansion s.key v.nk v.nr).getD i 0#32) ∧
      ∀ i, 4 * (v.nr + 1) ≤ i → wAt x i = wAt s.w i) ∧
  ∀ (s t : State) (v : Variant), s.Inv → s.phase = .kexp → Latched s v → engineStep s = .next t → t.phase = .idle →
    t.keyValid = true ∧ t.kvar = v.code ∧
    ∀ i, i < 4 * (v.nr + 1) → wAt t.w i = (keyExpansion s.key v.nk v.nr).getD i 0#32

/-- R187: KeyExpansion reads only KEY[0 .. Nk-1]. -/
def Obligations.ScheduleReadsOnlyNkKeyWords : Prop :=
  ∀ (v : Variant) (k k' : KeyRegs), (∀ i, i < v.nk → keyAt k i = keyAt k' i) →
    keyExpansion k v.nk v.nr = keyExpansion k' v.nk v.nr

/-! ## The sequencer -/

/-- R207 and R281: a uop step executes the instruction that the uop word at UPC decodes to, and then moves UPC by one or, after
the last uop, completes.  While BUSY, when the host's next action still waits or there is none, a step is an engine step:
exactly that uop where as many engine steps of the latency are left as uops; else all uops left in the last step of the
latency, and in an earlier one the next uop, or none when only the last is left (the model's choice where the latency is
another, notes/assumptions/4.md).  An IDLE engine with nothing pending has no step. -/
def Obligations.EngineStepRunsTheIssuedUop : Prop :=
  (∀ (s : State) (u : UopWord) (i : Instr), fetchUop s = some u → decode (.uop u) = .ok i →
    uopStep s = andThen (exec i s) advance ∧
    (uopsLeft s = s.stepsLeft → engineStep s = andThen (exec i s) fun t =>
      if t.upc.toNat + 1 = (prog t.phase t.opNk.toNat t.opNr.toNat).length then t.complete
      else { t with upc := t.upc + 1#6, stepsLeft := t.stepsLeft - 1 })) ∧
  (∀ s : State, s.phase ≠ .idle →
    (s.turns = [] → step s = engineStep s) ∧
    ∀ (n : Nat) (a : HostAction) (rest : List HostTurn), s.turns = ⟨n + 1, a⟩ :: rest →
      step s = engineStep { s with turns := ⟨n, a⟩ :: rest }) ∧
  (∀ s : State,
    (s.stepsLeft ≤ 1 → engineStep s = uopSteps (uopsLeft s - 1) s) ∧
    (1 < s.stepsLeft → uopsLeft s = 1 → engineStep s = .next { s with stepsLeft := s.stepsLeft - 1 }) ∧
    (1 < s.stepsLeft → uopsLeft s ≠ 1 →
      engineStep s = andThen (uopStep s) fun t => { t with stepsLeft := t.stepsLeft - 1 })) ∧
  (∀ (n : Nat) (s t : State), uopSteps 0 s = uopStep s ∧
    (uopSteps (n + 1) s = .next t ↔ ∃ u, uopStep s = .next u ∧ uopSteps n u = .next t)) ∧
  (∀ s : State, fetchUop s = (prog s.phase s.opNk.toNat s.opNr.toNat)[s.upc.toNat]? ∧
    uopsLeft s = (prog s.phase s.opNk.toNat s.opNr.toNat).length - s.upc.toNat) ∧
  (∀ s : State, s.upc.toNat + 1 = (prog s.phase s.opNk.toNat s.opNr.toNat).length → advance s = s.complete) ∧
  (∀ s : State, s.upc.toNat + 1 ≠ (prog s.phase s.opNk.toNat s.opNr.toNat).length →
    advance s = { s with upc := s.upc + 1#6 }) ∧
  ∀ s : State, s.phase = .idle → s.turns = [] → step s = .refused .quiescent

/-- R34, R101: when the host's next action is a write to CMD of the word of a command, and its turn has come, a step is that
command executed at the state without that action, and the response is OK. -/
def Obligations.CommandWriteRunsTheCommand : Prop :=
  ∀ (s : State) (n : Nat) (v : Word) (i : Instr) (rest : List HostTurn),
    s.turns = ⟨n, .write (s.baseAddr + 0x04) 4 v⟩ :: rest → (s.phase = .idle ∨ n = 0) → decode (.cmd v) = .ok i →
    step s = andThen (exec i { s with turns := rest }) (fun t => { t with resp := .okWrite })

/-- R208: the micro-programs, word by word, and their lengths. -/
def Obligations.MicroProgramsAreTheRoundOrders : Prop :=
  ∀ v : Variant,
    ((progInstrs .kexp v.nk v.nr).length = 4 * (v.nr + 1) ∧ (progInstrs .enc v.nk v.nr).length = 4 * v.nr + 2 ∧
      (progInstrs .dec v.nk v.nr).length = 4 * v.nr + 2) ∧
    (∀ i, i < 4 * (v.nr + 1) → (progInstrs .kexp v.nk v.nr)[i]? =
      some (if i < v.nk then .uKload (BitVec.ofNat 6 i) else .uKgen (BitVec.ofNat 6 i))) ∧
    ((progInstrs .enc v.nk v.nr)[0]? = some .uLoad ∧ (progInstrs .enc v.nk v.nr)[1]? = some (.uArk 0#6) ∧
      (progInstrs .dec v.nk v.nr)[0]? = some .uLoad ∧
      (progInstrs .dec v.nk v.nr)[1]? = some (.uArk (BitVec.ofNat 6 v.nr))) ∧
    (∀ rnd, 1 ≤ rnd → rnd < v.nr →
      (progInstrs .enc v.nk v.nr)[4 * rnd - 2]? = some .uSb ∧ (progInstrs .enc v.nk v.nr)[4 * rnd - 1]? = some .uSr ∧
      (progInstrs .enc v.nk v.nr)[4 * rnd]? = some .uMc ∧
      (progInstrs .enc v.nk v.nr)[4 * rnd + 1]? = some (.uArk (BitVec.ofNat 6 rnd)) ∧
      (progInstrs .dec v.nk v.nr)[4 * (v.nr - rnd) - 2]? = some .uIsr ∧
      (progInstrs .dec v.nk v.nr)[4 * (v.nr - rnd) - 1]? = some .uIsb ∧
      (progInstrs .dec v.nk v.nr)[4 * (v.nr - rnd)]? = some (.uArk (BitVec.ofNat 6 rnd)) ∧
      (progInstrs .dec v.nk v.nr)[4 * (v.nr - rnd) + 1]? = some .uImc) ∧
    ((progInstrs .enc v.nk v.nr)[4 * v.nr - 2]? = some .uSb ∧ (progInstrs .enc v.nk v.nr)[4 * v.nr - 1]? = some .uSr ∧
      (progInstrs .enc v.nk v.nr)[4 * v.nr]? = some (.uArk (BitVec.ofNat 6 v.nr)) ∧
      (progInstrs .enc v.nk v.nr)[4 * v.nr + 1]? = some .uStore) ∧
    ((progInstrs .dec v.nk v.nr)[4 * v.nr - 2]? = some .uIsr ∧ (progInstrs .dec v.nk v.nr)[4 * v.nr - 1]? = some .uIsb ∧
      (progInstrs .dec v.nk v.nr)[4 * v.nr]? = some (.uArk 0#6) ∧
      (progInstrs .dec v.nk v.nr)[4 * v.nr + 1]? = some .uStore)

/-- R211: the completion, in the step of the last uop of a program: DONE is set, PHASE returns to IDLE and UPC to 0, a KEYEXP
also sets KEY_VALID and KVAR by its OP_NK; ERR, OVR, OP_NK and OP_NR keep their values.  An engine step does so when its
latency ends (R281; that it waits for that is notes/assumptions/4.md). -/
def Obligations.CompletionStep : Prop :=
  ∀ (s t : State) (u : UopWord) (i : Instr), s.phase ≠ .idle → fetchUop s = some u → decode (.uop u) = .ok i →
    exec i s = .next t → s.upc.toNat + 1 = (prog s.phase s.opNk.toNat s.opNr.toNat).length →
    (s.phase = .kexp → uopStep s = .next
      { t with
        keyValid := true, kvar := if s.opNk = 4#4 then 0b00#2 else if s.opNk = 6#4 then 0b01#2 else 0b10#2
        done := true, phase := .idle, upc := 0#6, stepsLeft := 0 }) ∧
    (s.phase ≠ .kexp → uopStep s = .next { t with done := true, phase := .idle, upc := 0#6, stepsLeft := 0 }) ∧
    (s.stepsLeft ≤ 1 → engineStep s = uopStep s) ∧
    t.err = s.err ∧ t.ovr = s.ovr ∧ t.opNk = s.opNk ∧ t.opNr = s.opNr

/-- R213, R212, R281: from the acceptance of an ENCRYPT, with no host action pending, the engine steps of its latency, whatever
it is, put Cipher(DIN, W, Nr) into DOUT and complete; the same for a DECRYPT and InvCipher; nothing else changes but S,
which no transaction reads. -/
def Obligations.EncryptAndDecryptAreTheCiphers : Prop :=
  ∀ (s : State) (v : Variant), s.upc = 0#6 → Latched s v → s.turns = [] → 1 ≤ s.stepsLeft →
    (s.phase = .enc → Host.Core.run Sys2Proof.core s.stepsLeft s = .next
      { s with
        sreg := cipherState s.din s.w v.nr, dout := cipher s.din s.w v.nr, done := true, phase := .idle
        upc := 0#6, stepsLeft := 0 }) ∧
    (s.phase = .dec → Host.Core.run Sys2Proof.core s.stepsLeft s = .next
      { s with
        sreg := invCipherState s.din s.w v.nr, dout := invCipher s.din s.w v.nr, done := true, phase := .idle
        upc := 0#6, stepsLeft := 0 })

/-- R214: InvCipher undoes Cipher, for every schedule, every block and every number of rounds. -/
def Obligations.InvCipherUndoesCipher : Prop :=
  ∀ (p : Block) (w : KeyStore) (nr : Nat), invCipher (cipher p w nr) w nr = p

/-- R212, R82: the datapath invariant: whatever the host does between the engine's steps, S stays what the uops below UPC
make of DIN and W. -/
def Obligations.StepKeepsDatapathInv : Prop :=
  ∀ s t : State, s.Inv → DatapathInv s → step s = .next t → DatapathInv t

/-- R212, R213: the completion step of an ENCRYPT puts Cipher(DIN, W, Nr) into DOUT and that of a DECRYPT InvCipher, in
every state of the two invariants, that is under every interleaving with the host. -/
def Obligations.CompletionDeliversTheCiphers : Prop :=
  ∀ s t : State, s.Inv → DatapathInv s → engineStep s = .next t → t.phase = .idle →
    (s.phase = .enc → t.dout = cipher s.din s.w s.opNr.toNat) ∧
    (s.phase = .dec → t.dout = invCipher s.din s.w s.opNr.toNat)

/-! ## The host port -/

/-- R71: the address map: at `BASE_ADDR + offset(reg)` stands that register, and every other address selects none. -/
def Obligations.AddressMap : Prop :=
  (∀ (s : State) (r : Reg), selectReg s (s.baseAddr + r.offset.toNat) 4 = some r) ∧
  (∀ (s : State) (addr : Nat) (r : Reg), selectReg s addr 4 = some r → addr = s.baseAddr + r.offset.toNat) ∧
  Reg.offset .ctrl = 0x00#8 ∧ Reg.offset .cmd = 0x04#8 ∧ Reg.offset .status = 0x08#8 ∧
  (∀ k : Fin 8, (Reg.offset (.key k)).toNat = 0x10 + 4 * k.val) ∧
  (∀ k : Fin 4, (Reg.offset (.din k)).toNat = 0x30 + 4 * k.val) ∧
  ∀ k : Fin 4, (Reg.offset (.dout k)).toNat = 0x40 + 4 * k.val

/-- R71, R72, R73, R247: a transaction of a size other than 4, at a misaligned or an unmapped offset (0x0C, 0x50 and above)
gets the ERROR response and changes no state.  That one outside the window, below or beyond it, does so too is the model's
choice (notes/assumptions/13.md, 14.md). -/
def Obligations.BusErrorChangesNothing : Prop :=
  ∀ (s : State) (addr size : Nat) (v : Word),
    (size ≠ 4 ∨ addr < s.baseAddr ∨ (addr - s.baseAddr) % 4 ≠ 0 ∨ addr - s.baseAddr = 0x0C ∨
      0x50 ≤ addr - s.baseAddr) →
    hostStep (.read addr size) s = .next { s with resp := .error } ∧
    hostStep (.write addr size v) s = .next { s with resp := .error }

/-- R75: what a read of each register returns; no read changes the engine; and (R42, R53) no read depends on KEY, W or S. -/
def Obligations.ReadsReturnTheRegisters : Prop :=
  (∀ (s : State) (k : KeyRegs) (w : KeyStore) (x : SReg) (addr size : Nat),
    memRead { s with key := k, w := w, sreg := x } addr size = memRead s addr size) ∧
  ∀ s : State,
    hostStep (.read (s.baseAddr + 0x00) 4) s =
      .next { s with resp := .data (0x00#8 ++ s.blklen ++ s.keylen ++ 0b000000#6 ++ s.ksize) } ∧
    hostStep (.read (s.baseAddr + 0x04) 4) s = .next { s with resp := .data 0x00000000#32 } ∧
    hostStep (.read (s.baseAddr + 0x08) 4) s = .next { s with resp := .data (statusWord s) } ∧
    (∀ k : Fin 8, hostStep (.read (s.baseAddr + 0x10 + 4 * k.val) 4) s =
      .next { s with resp := .data 0x00000000#32 }) ∧
    (∀ k : Fin 4, hostStep (.read (s.baseAddr + 0x30 + 4 * k.val) 4) s = .next { s with resp := .data s.din[k] }) ∧
    ∀ k : Fin 4, hostStep (.read (s.baseAddr + 0x40 + 4 * k.val) 4) s = .next { s with resp := .data s.dout[k] }

/-- R41, R35: the bits of STATUS, BUSY being PHASE ≠ IDLE; a read returns them without a side effect and a write is ignored
and no bus error. -/
def Obligations.StatusBits : Prop :=
  ∀ s : State,
    (statusWord s).toNat =
      256 * s.kvar.toNat + 16 * s.err.toNat + 8 * s.ovr.toNat + 4 * s.done.toNat + 2 * s.keyValid.toNat +
        (if s.phase = .idle then 0 else 1) ∧
    ((statusWord s).getLsbD 0 = true ↔ s.phase ≠ .idle) ∧
    hostStep (.read (s.baseAddr + 0x08) 4) s = .next { s with resp := .data (statusWord s) } ∧
    ∀ v : Word, hostStep (.write (s.baseAddr + 0x08) 4 v) s = .next { s with resp := .okWrite }

/-- R76: while IDLE a write to CTRL, KEY or DIN writes its fields, while BUSY it has no effect, and on STATUS and DOUT it
never has one; each gets an OK response. -/
def Obligations.WritesStageTheOperands : Prop :=
  ∀ (s : State) (v : Word),
    (s.phase = .idle →
      hostStep (.write (s.baseAddr + 0x00) 4 v) s = .next
        { s with
          ksize := v.extractLsb' 0 2, keylen := v.extractLsb' 8 8, blklen := v.extractLsb' 16 8, resp := .okWrite } ∧
      (∀ k : Fin 8, hostStep (.write (s.baseAddr + 0x10 + 4 * k.val) 4 v) s =
        .next { s with key := s.key.set k v, resp := .okWrite }) ∧
      ∀ k : Fin 4, hostStep (.write (s.baseAddr + 0x30 + 4 * k.val) 4 v) s =
        .next { s with din := s.din.set k v, resp := .okWrite }) ∧
    (s.phase ≠ .idle →
      hostStep (.write (s.baseAddr + 0x00) 4 v) s = .next { s with resp := .okWrite } ∧
      (∀ k : Fin 8, hostStep (.write (s.baseAddr + 0x10 + 4 * k.val) 4 v) s = .next { s with resp := .okWrite }) ∧
      ∀ k : Fin 4, hostStep (.write (s.baseAddr + 0x30 + 4 * k.val) 4 v) s = .next { s with resp := .okWrite }) ∧
    hostStep (.write (s.baseAddr + 0x08) 4 v) s = .next { s with resp := .okWrite } ∧
    ∀ k : Fin 4, hostStep (.write (s.baseAddr + 0x40 + 4 * k.val) 4 v) s = .next { s with resp := .okWrite }

/-- R33, R43, R280: a write to CTRL or DIN while IDLE is what the very next read returns, the reserved bits of CTRL as 0;
any write but one to CMD, made twice, does what it does made once (R77). -/
def Obligations.WriteThenReadBack : Prop :=
  (∀ (s t : State) (v : Word), s.phase = .idle → hostStep (.write (s.baseAddr + 0x00) 4 v) s = .next t →
    memRead t (t.baseAddr + 0x00) 4 = .data (v &&& 0x00FFFF03#32)) ∧
  (∀ (s t : State) (v : Word) (k : Fin 4), s.phase = .idle →
    hostStep (.write (s.baseAddr + 0x30 + 4 * k.val) 4 v) s = .next t →
    memRead t (t.baseAddr + 0x30 + 4 * k.val) 4 = .data v) ∧
  ∀ (s t : State) (addr size : Nat) (v : Word), selectReg s addr size ≠ some .cmd →
    memWrite addr size v s = .next t → memWrite addr size v t = .next t

/-- R113: one round of a POLL reads; the loop goes on while `(result & mask) ≠ value` and else ends.  (That the next read
comes after `gap + 1` engine steps, and that an ERROR response ends the loop, is the model's choice, notes/assumptions/5.md.) -/
def Obligations.PollReadsUntilItMatches : Prop :=
  ∀ (s : State) (addr gap : Nat) (mask value : Word),
    (∀ d, memRead s addr 4 = .data d → d &&& mask ≠ value →
      hostStep (.poll addr mask value gap) s = .next
        { s with resp := .data d, turns := ⟨gap + 1, .poll addr mask value gap⟩ :: s.turns }) ∧
    (∀ d, memRead s addr 4 = .data d → d &&& mask = value →
      hostStep (.poll addr mask value gap) s = .next { s with resp := .data d }) ∧
    (memRead s addr 4 = .error → hostStep (.poll addr mask value gap) s = .next { s with resp := .error })

/-! ## The whole machine -/

/-- R271: the values after reset, of everything but S and W, which R271 leaves unspecified. -/
def Obligations.ResetValues : Prop :=
  ctrlWord State.reset = 0x00101000#32 ∧ statusWord State.reset = 0x00000000#32 ∧
  (∀ k, keyAt State.reset.key k = 0#32) ∧ (∀ k : Fin 4, State.reset.din[k] = 0#32) ∧
  (∀ k : Fin 4, State.reset.dout[k] = 0#32) ∧ State.reset.phase = .idle ∧ State.reset.upc = 0#6 ∧
  State.reset.opNk = 0#4 ∧ State.reset.opNr = 0#4

/-- R272, R270: the reset input in any state, busy or not, leaves the engine IDLE without a key and every register but S and
W at its reset value; the host's pending actions, BASE_ADDR and the latencies are kept (the model's choice,
notes/assumptions/3.md, 4.md, 5.md). -/
def Obligations.ResetAbandonsTheCommand : Prop :=
  ∀ s : State, ∃ t, hostStep .reset s = .next t ∧
    ctrlWord t = 0x00101000#32 ∧ statusWord t = 0x00000000#32 ∧ t.phase = .idle ∧ t.upc = 0#6 ∧
    t.opNk = 0#4 ∧ t.opNr = 0#4 ∧ t.keyValid = false ∧ t.key = State.reset.key ∧ t.din = State.reset.din ∧
    t.dout = State.reset.dout ∧ t.turns = s.turns ∧ t.basePage = s.basePage ∧ t.lat = s.lat

/-- The state after reset meets the invariants. -/
def Obligations.ResetMeetsInv : Prop := State.reset.Inv ∧ DatapathInv State.reset

/-- Every step keeps the invariant: legal ERR and KVAR codes, latencies of at least 1, UPC inside the program of a variant, KEY_VALID against PHASE,
and, while KEY_VALID = 1, a complete key schedule for KVAR in W (R36, R39, R40, R49). -/
def Obligations.StepKeepsInv : Prop := ∀ s t : State, s.Inv → step s = .next t → t.Inv

/-- R259: the engine can neither fault nor hang: in every state of the invariant a step answers a next state, unless the
engine is IDLE and nothing is pending. -/
def Obligations.NoFaultNoHang : Prop :=
  ∀ s : State, s.Inv → s.phase ≠ .idle ∨ s.turns ≠ [] → ∃ t, step s = .next t

/-- R259, R281, R282: a busy engine completes, with DONE = 1 and ERR = 0, in exactly the engine steps that are left of its
latency.  With no host action pending it is busy before and IDLE after them; whatever actions short of the reset input are
pending, it is IDLE after finitely many steps; and each step is the reset input, or an engine step, which brings completion
one step nearer, or a step of the host, which does not move it. -/
def Obligations.AcceptedCommandsComplete : Prop :=
  ∀ s : State, s.Inv → s.phase ≠ .idle →
    (s.turns = [] →
      (∀ k, k < s.stepsLeft → ∃ t, Host.Core.run Sys2Proof.core k s = .next t ∧ t.phase = s.phase) ∧
      ∃ t, Host.Core.run Sys2Proof.core s.stepsLeft s = .next t ∧ t.phase = .idle ∧ t.done = true ∧ t.err = 0#4) ∧
    ((∀ u ∈ s.turns, u.act ≠ .reset) →
      ∃ k t, k ≤ 2 * s.stepsLeft + s.turns.length ∧ Host.Core.run Sys2Proof.core k s = .next t ∧ t.phase = .idle ∧
        t.done = true ∧ t.err = 0#4) ∧
    ∀ t, step s = .next t →
      ByReset s t ∨
      (ByEngine s t ∧ t.stepsLeft + 1 = s.stepsLeft ∧
        ((s.stepsLeft = 1 ∧ t.phase = .idle ∧ t.done = true ∧ t.err = 0#4) ∨
          (1 < s.stepsLeft ∧ t.phase = s.phase ∧ t.done = false))) ∨
      (¬ EngineDue s ∧ t.phase = s.phase ∧ t.stepsLeft = s.stepsLeft ∧ t.upc = s.upc)

/-- R36, R40: KEY_VALID rises only in the completion step of a KEYEXP, an engine step, which alone writes KVAR, and falls only
when a KEYEXP is accepted or the step is the reset input, which clears both. -/
def Obligations.KeyValidAndKvarWriters : Prop :=
  ∀ s t : State, step s = .next t →
    (ByReset s t ∧ t.keyValid = false ∧ t.kvar = 0b00#2) ∨
    (t.keyValid = s.keyValid ∧ t.kvar = s.kvar) ∨
    (ByEngine s t ∧ s.phase = .kexp ∧ t.phase = .idle ∧ t.keyValid = true ∧ t.kvar = kvarOfNk s.opNk) ∨
    (s.phase = .idle ∧ t.phase = .kexp ∧ t.keyValid = false ∧ t.kvar = s.kvar)

/-- R188: only the micro-operations of a KEYEXP write W: of the instructions U_KLOAD and U_KGEN, and of the steps the engine
steps of a running KEYEXP (and the reset input, which leaves W unspecified). -/
def Obligations.ScheduleIsImmutable : Prop :=
  (∀ (i : Instr) (s t : State), exec i s = .next t → t.w ≠ s.w → ∃ x, i = .uKload x ∨ i = .uKgen x) ∧
  ∀ s t : State, step s = .next t → t.w ≠ s.w → (ByEngine s t ∧ s.phase = .kexp) ∨ ByReset s t

/-- R44: DOUT changes only in the completion step of an ENCRYPT or DECRYPT, an engine step, to the block in S, all four words
together (and by the reset input, to 0). -/
def Obligations.DoutChangesOnlyAtCompletion : Prop :=
  ∀ s t : State, step s = .next t → t.dout ≠ s.dout →
    (ByEngine s t ∧ (s.phase = .enc ∨ s.phase = .dec) ∧ t.phase = .idle ∧ t.done = true ∧
      t.dout = blockOfSreg t.sreg) ∨
    (ByReset s t ∧ ∀ k : Fin 4, t.dout[k] = 0#32)

/-- R50, R276: while BUSY no step changes CTRL, KEY, DIN, OP_NK or OP_NR, but the step that is the reset input. -/
def Obligations.OperandsFrozenWhileBusy : Prop :=
  ∀ s t : State, s.phase ≠ .idle → step s = .next t →
    (t.ksize = s.ksize ∧ t.keylen = s.keylen ∧ t.blklen = s.blklen ∧ t.key = s.key ∧ t.din = s.din ∧
      t.opNk = s.opNk ∧ t.opNr = s.opNr) ∨
    ByReset s t

/-- R9, R281: the control state does not depend on key or data: two states with the same control, and whatever KEY, DIN,
DOUT, S and W, make the same step as far as control goes, and so complete after the same number of steps; and no step
changes a latency, so that none depends on earlier commands. -/
def Obligations.TimingIndependentOfData : Prop :=
  (∀ s t : State, SameControl s t → (∀ u rest, s.turns = u :: rest → noDataPoll s u.act = true) →
    SameControlResult (step s) (step t)) ∧
  ∀ s t : State, step s = .next t → t.lat = s.lat

/-! ## The field and the tables -/

/-- R132: GF(2^8) multiplication is commutative, associative and distributes over XOR, 0x01 is its identity, 0x00
annihilates, and every non-zero byte has exactly one inverse. -/
def Obligations.FieldLaws : Prop :=
  (∀ a b, galoisMul a b = galoisMul b a) ∧
  (∀ a b c, galoisMul (galoisMul a b) c = galoisMul a (galoisMul b c)) ∧
  (∀ a b c, galoisMul a (b ^^^ c) = galoisMul a b ^^^ galoisMul a c) ∧
  (∀ a, galoisMul a 0x01#8 = a ∧ galoisMul 0x01#8 a = a) ∧
  (∀ a, galoisMul a 0x00#8 = 0x00#8 ∧ galoisMul 0x00#8 a = 0x00#8) ∧
  ∀ b : Byte, b ≠ 0x00#8 → ∃ x, galoisMul b x = 0x01#8 ∧ ∀ y, galoisMul b y = 0x01#8 → y = x

/-- R133: ginv(b) is the unique inverse of a non-zero b, and ginv(0x00) = 0x00. -/
def Obligations.GinvIsTheInverse : Prop :=
  (∀ b : Byte, b ≠ 0x00#8 → galoisMul b (ginv b) = 0x01#8 ∧ ∀ x, galoisMul b x = 0x01#8 → x = ginv b) ∧
  ginv 0x00#8 = 0x00#8 ∧ ginv 0x01#8 = 0x01#8 ∧ ginv 0x53#8 = 0xCA#8

/-- R130, R131, R137: xtime, galois_mul and rcon on the values the rules print. -/
def Obligations.FieldExamples : Prop :=
  (∀ b : Byte, xtime b = if b.toNat < 128 then BitVec.ofNat 8 (2 * b.toNat) else BitVec.ofNat 8 (2 * b.toNat) ^^^ 0x1B#8) ∧
  xtime 0x80#8 = 0x1B#8 ∧ xtime 0xFF#8 = 0xE5#8 ∧ xtime 0x8D#8 = 0x01#8 ∧ xtime 0x57#8 = 0xAE#8 ∧
  galoisMul 0xFF#8 0xFF#8 = 0x13#8 ∧ galoisMul 0x57#8 0x83#8 = 0xC1#8 ∧ galoisMul 0x57#8 0x13#8 = 0xFE#8 ∧
  (∀ b, galoisMul 0x02#8 b = xtime b ∧ galoisMul 0x03#8 b = xtime b ^^^ b) ∧
  rcon 1 = 0x01000000#32 ∧ rcon 2 = 0x02000000#32 ∧ rcon 3 = 0x04000000#32 ∧ rcon 4 = 0x08000000#32 ∧
  rcon 5 = 0x10000000#32 ∧ rcon 6 = 0x20000000#32 ∧ rcon 7 = 0x40000000#32 ∧ rcon 8 = 0x80000000#32 ∧
  rcon 9 = 0x1b000000#32 ∧ rcon 10 = 0x36000000#32

/-- R135, R136: the ROM SBOX is `affine(ginv(b))` for every b, without a fixed or an opposite fixed point, and INV_SBOX is
its inverse permutation. -/
def Obligations.SboxTables : Prop :=
  (∀ b, sbox b = affine (ginv b)) ∧ (∀ b, invSbox (sbox b) = b) ∧ (∀ b, sbox (invSbox b) = b) ∧
  (∀ b, sbox b ≠ b ∧ sbox b ≠ b ^^^ 0xFF#8) ∧
  sbox 0x00#8 = 0x63#8 ∧ sbox 0x53#8 = 0xED#8 ∧ sbox 0xFF#8 = 0x16#8 ∧ invSbox 0x00#8 = 0x52#8
end

