-- ==== Sys2Proof/Laws/Data.lean ====
section
/-! SUPPORT. The small laws of the data accessors: cells of S, words of W, bytes of a word. -/

namespace Sys2Proof.Machine

@[simp] theorem cell_sregOf (f : Fin 4 → Fin 4 → Byte) (r c : Fin 4) : cell (sregOf f) r c = f r c := by
  simp [cell, sregOf]

/-- Two state registers with the same sixteen cells are equal. -/
theorem sreg_ext {s t : SReg} (h : ∀ r c, cell s r c = cell t r c) : s = t := by
  apply Vector.ext
  intro i hi
  apply Vector.ext
  intro j hj
  exact h ⟨i, hi⟩ ⟨j, hj⟩

theorem sregOf_cell (s : SReg) : sregOf (cell s) = s :=
  sreg_ext fun r c => cell_sregOf (cell s) r c

/-- Byte j of a word put together from four bytes (R13). -/
theorem byteOf_wordOf (b0 b1 b2 b3 : Byte) :
    byteOf (wordOf b0 b1 b2 b3) 0 = b0 ∧ byteOf (wordOf b0 b1 b2 b3) 1 = b1 ∧
    byteOf (wordOf b0 b1 b2 b3) 2 = b2 ∧ byteOf (wordOf b0 b1 b2 b3) 3 = b3 := by
  refine ⟨?_, ?_, ?_, ?_⟩ <;>
  · apply BitVec.eq_of_getLsbD_eq
    intro i hi
    simp only [byteOf, wordOf, BitVec.getLsbD_extractLsb', BitVec.getLsbD_append, hi, decide_true, Bool.true_and]
    interval_cases i <;> rfl

/-- A word is put together from its four bytes (R13). -/
theorem wordOf_byteOf (w : Word) : wordOf (byteOf w 0) (byteOf w 1) (byteOf w 2) (byteOf w 3) = w := by
  apply BitVec.eq_of_getLsbD_eq
  intro i hi
  simp only [byteOf, wordOf, BitVec.getLsbD_extractLsb', BitVec.getLsbD_append]
  interval_cases i <;> rfl

/-- Loading a block and storing it gives it back (R209, R210). -/
theorem blockOfSreg_sregOfBlock (b : Block) : blockOfSreg (sregOfBlock b) = b := by
  apply Vector.ext
  intro i hi
  simp [blockOfSreg, sregOfBlock, wordOf_byteOf]

/-- Storing a state register and loading it gives it back (R209, R210). -/
theorem sregOfBlock_blockOfSreg (x : SReg) : sregOfBlock (blockOfSreg x) = x := by
  refine sreg_ext fun r c => ?_
  obtain ⟨h0, h1, h2, h3⟩ := byteOf_wordOf (cell x 0 c) (cell x 1 c) (cell x 2 c) (cell x 3 c)
  have hr : r = 0 ∨ r = 1 ∨ r = 2 ∨ r = 3 := by revert r; decide
  simp only [sregOfBlock, cell_sregOf, blockOfSreg]
  rcases hr with rfl | rfl | rfl | rfl <;> simpa

/-- Reading W after writing one of its 60 words (R48). -/
theorem wAt_setIfInBounds (w : KeyStore) (i j : Nat) (x : Word) (hi : i < 60) :
    wAt (w.setIfInBounds i x) j = if j = i then x else wAt w j := by
  unfold wAt
  rcases Nat.lt_or_ge j 60 with hj | hj
  · rw [Vector.getElem?_eq_getElem hj, Vector.getElem?_eq_getElem hj, Vector.getElem_setIfInBounds hj]
    by_cases h : i = j <;> simp [h, eq_comm]
  · have hne : j ≠ i := by omega
    rw [Vector.getElem?_eq_none hj, Vector.getElem?_eq_none hj, if_neg hne]

/-- The schedule function makes n words (R182). -/
@[simp] theorem scheduleWords_length (k : KeyRegs) (nk n : Nat) : (scheduleWords k nk n).length = n := by
  induction n with
  | zero => rfl
  | succ n ih => simp [scheduleWords, ih]

/-- KeyExpansion makes exactly `4*(Nr+1)` words (R182). -/
theorem keyExpansion_length (k : KeyRegs) (nk nr : Nat) : (keyExpansion k nk nr).length = 4 * (nr + 1) := by
  simp [keyExpansion]; omega

/-- The words of a shorter schedule are the first words of a longer one: word i depends on earlier words only (R184). -/
theorem scheduleWords_prefix (k : KeyRegs) (nk n m : Nat) (h : n ≤ m) :
    ∀ i, i < n → (scheduleWords k nk m).getD i 0#32 = (scheduleWords k nk n).getD i 0#32 := by
  induction m with
  | zero => intro i hi; omega
  | succ m ih =>
    intro i hi
    rcases Nat.lt_or_ge m n with c | c
    · rw [show n = m + 1 by omega]
    · rw [← ih c i hi]
      simp only [scheduleWords, List.getD_eq_getElem?_getD]
      rw [List.getElem?_append_left (by simp; omega)]

/-- Word i of the schedule: a key word, or what the word generator makes of the words before (R183, R184). -/
theorem scheduleWords_getD (k : KeyRegs) (nk n i : Nat) (hnk : 0 < nk) (h : i < n) :
    (scheduleWords k nk n).getD i 0#32 =
      if i < nk then keyAt k i
      else kgenWord nk i ((scheduleWords k nk n).getD (i - 1) 0#32) ((scheduleWords k nk n).getD (i - nk) 0#32) := by
  rw [scheduleWords_prefix k nk (i + 1) n (by omega) i (by omega)]
  by_cases c : i < nk
  · simp [scheduleWords, c]
  · rw [if_neg c, scheduleWords_prefix k nk i n (by omega) (i - 1) (by omega),
      scheduleWords_prefix k nk i n (by omega) (i - nk) (by omega)]
    simp [scheduleWords, c]

end Sys2Proof.Machine
end

