-- ==== Sys2Proof/Laws/State.lean ====
section
/-! SUPPORT. One lemma per field per named update of the state, so that no later proof unfolds a record update. -/

namespace Sys2Proof.Machine

/-! `State.setSreg`: `S <- x`. -/

@[simp] theorem State.setSreg_ksize (s : State) (x : SReg) : (s.setSreg x).ksize = s.ksize := rfl
@[simp] theorem State.setSreg_keylen (s : State) (x : SReg) : (s.setSreg x).keylen = s.keylen := rfl
@[simp] theorem State.setSreg_blklen (s : State) (x : SReg) : (s.setSreg x).blklen = s.blklen := rfl
@[simp] theorem State.setSreg_keyValid (s : State) (x : SReg) : (s.setSreg x).keyValid = s.keyValid := rfl
@[simp] theorem State.setSreg_done (s : State) (x : SReg) : (s.setSreg x).done = s.done := rfl
@[simp] theorem State.setSreg_ovr (s : State) (x : SReg) : (s.setSreg x).ovr = s.ovr := rfl
@[simp] theorem State.setSreg_err (s : State) (x : SReg) : (s.setSreg x).err = s.err := rfl
@[simp] theorem State.setSreg_kvar (s : State) (x : SReg) : (s.setSreg x).kvar = s.kvar := rfl
@[simp] theorem State.setSreg_key (s : State) (x : SReg) : (s.setSreg x).key = s.key := rfl
@[simp] theorem State.setSreg_din (s : State) (x : SReg) : (s.setSreg x).din = s.din := rfl
@[simp] theorem State.setSreg_dout (s : State) (x : SReg) : (s.setSreg x).dout = s.dout := rfl
@[simp] theorem State.setSreg_sreg (s : State) (x : SReg) : (s.setSreg x).sreg = x := rfl
@[simp] theorem State.setSreg_w (s : State) (x : SReg) : (s.setSreg x).w = s.w := rfl
@[simp] theorem State.setSreg_phase (s : State) (x : SReg) : (s.setSreg x).phase = s.phase := rfl
@[simp] theorem State.setSreg_upc (s : State) (x : SReg) : (s.setSreg x).upc = s.upc := rfl
@[simp] theorem State.setSreg_opNk (s : State) (x : SReg) : (s.setSreg x).opNk = s.opNk := rfl
@[simp] theorem State.setSreg_opNr (s : State) (x : SReg) : (s.setSreg x).opNr = s.opNr := rfl
@[simp] theorem State.setSreg_basePage (s : State) (x : SReg) : (s.setSreg x).basePage = s.basePage := rfl
@[simp] theorem State.setSreg_turns (s : State) (x : SReg) : (s.setSreg x).turns = s.turns := rfl
@[simp] theorem State.setSreg_resp (s : State) (x : SReg) : (s.setSreg x).resp = s.resp := rfl
@[simp] theorem State.setSreg_resets (s : State) (x : SReg) : (s.setSreg x).resets = s.resets := rfl
@[simp] theorem State.setSreg_lat (s : State) (x : SReg) : (s.setSreg x).lat = s.lat := rfl
@[simp] theorem State.setSreg_stepsLeft (s : State) (x : SReg) : (s.setSreg x).stepsLeft = s.stepsLeft := rfl

/-! `State.setW`: `W[i] <- x`. -/

@[simp] theorem State.setW_ksize (s : State) (i : Nat) (x : Word) : (s.setW i x).ksize = s.ksize := rfl
@[simp] theorem State.setW_keylen (s : State) (i : Nat) (x : Word) : (s.setW i x).keylen = s.keylen := rfl
@[simp] theorem State.setW_blklen (s : State) (i : Nat) (x : Word) : (s.setW i x).blklen = s.blklen := rfl
@[simp] theorem State.setW_keyValid (s : State) (i : Nat) (x : Word) : (s.setW i x).keyValid = s.keyValid := rfl
@[simp] theorem State.setW_done (s : State) (i : Nat) (x : Word) : (s.setW i x).done = s.done := rfl
@[simp] theorem State.setW_ovr (s : State) (i : Nat) (x : Word) : (s.setW i x).ovr = s.ovr := rfl
@[simp] theorem State.setW_err (s : State) (i : Nat) (x : Word) : (s.setW i x).err = s.err := rfl
@[simp] theorem State.setW_kvar (s : State) (i : Nat) (x : Word) : (s.setW i x).kvar = s.kvar := rfl
@[simp] theorem State.setW_key (s : State) (i : Nat) (x : Word) : (s.setW i x).key = s.key := rfl
@[simp] theorem State.setW_din (s : State) (i : Nat) (x : Word) : (s.setW i x).din = s.din := rfl
@[simp] theorem State.setW_dout (s : State) (i : Nat) (x : Word) : (s.setW i x).dout = s.dout := rfl
@[simp] theorem State.setW_sreg (s : State) (i : Nat) (x : Word) : (s.setW i x).sreg = s.sreg := rfl
@[simp] theorem State.setW_w (s : State) (i : Nat) (x : Word) : (s.setW i x).w = s.w.setIfInBounds i x := rfl
@[simp] theorem State.setW_phase (s : State) (i : Nat) (x : Word) : (s.setW i x).phase = s.phase := rfl
@[simp] theorem State.setW_upc (s : State) (i : Nat) (x : Word) : (s.setW i x).upc = s.upc := rfl
@[simp] theorem State.setW_opNk (s : State) (i : Nat) (x : Word) : (s.setW i x).opNk = s.opNk := rfl
@[simp] theorem State.setW_opNr (s : State) (i : Nat) (x : Word) : (s.setW i x).opNr = s.opNr := rfl
@[simp] theorem State.setW_basePage (s : State) (i : Nat) (x : Word) : (s.setW i x).basePage = s.basePage := rfl
@[simp] theorem State.setW_turns (s : State) (i : Nat) (x : Word) : (s.setW i x).turns = s.turns := rfl
@[simp] theorem State.setW_resp (s : State) (i : Nat) (x : Word) : (s.setW i x).resp = s.resp := rfl
@[simp] theorem State.setW_resets (s : State) (i : Nat) (x : Word) : (s.setW i x).resets = s.resets := rfl
@[simp] theorem State.setW_lat (s : State) (i : Nat) (x : Word) : (s.setW i x).lat = s.lat := rfl
@[simp] theorem State.setW_stepsLeft (s : State) (i : Nat) (x : Word) : (s.setW i x).stepsLeft = s.stepsLeft := rfl

/-! `State.setDout`: `DOUT <- x`. -/

@[simp] theorem State.setDout_ksize (s : State) (x : Block) : (s.setDout x).ksize = s.ksize := rfl
@[simp] theorem State.setDout_keylen (s : State) (x : Block) : (s.setDout x).keylen = s.keylen := rfl
@[simp] theorem State.setDout_blklen (s : State) (x : Block) : (s.setDout x).blklen = s.blklen := rfl
@[simp] theorem State.setDout_keyValid (s : State) (x : Block) : (s.setDout x).keyValid = s.keyValid := rfl
@[simp] theorem State.setDout_done (s : State) (x : Block) : (s.setDout x).done = s.done := rfl
@[simp] theorem State.setDout_ovr (s : State) (x : Block) : (s.setDout x).ovr = s.ovr := rfl
@[simp] theorem State.setDout_err (s : State) (x : Block) : (s.setDout x).err = s.err := rfl
@[simp] theorem State.setDout_kvar (s : State) (x : Block) : (s.setDout x).kvar = s.kvar := rfl
@[simp] theorem State.setDout_key (s : State) (x : Block) : (s.setDout x).key = s.key := rfl
@[simp] theorem State.setDout_din (s : State) (x : Block) : (s.setDout x).din = s.din := rfl
@[simp] theorem State.setDout_dout (s : State) (x : Block) : (s.setDout x).dout = x := rfl
@[simp] theorem State.setDout_sreg (s : State) (x : Block) : (s.setDout x).sreg = s.sreg := rfl
@[simp] theorem State.setDout_w (s : State) (x : Block) : (s.setDout x).w = s.w := rfl
@[simp] theorem State.setDout_phase (s : State) (x : Block) : (s.setDout x).phase = s.phase := rfl
@[simp] theorem State.setDout_upc (s : State) (x : Block) : (s.setDout x).upc = s.upc := rfl
@[simp] theorem State.setDout_opNk (s : State) (x : Block) : (s.setDout x).opNk = s.opNk := rfl
@[simp] theorem State.setDout_opNr (s : State) (x : Block) : (s.setDout x).opNr = s.opNr := rfl
@[simp] theorem State.setDout_basePage (s : State) (x : Block) : (s.setDout x).basePage = s.basePage := rfl
@[simp] theorem State.setDout_turns (s : State) (x : Block) : (s.setDout x).turns = s.turns := rfl
@[simp] theorem State.setDout_resp (s : State) (x : Block) : (s.setDout x).resp = s.resp := rfl
@[simp] theorem State.setDout_resets (s : State) (x : Block) : (s.setDout x).resets = s.resets := rfl
@[simp] theorem State.setDout_lat (s : State) (x : Block) : (s.setDout x).lat = s.lat := rfl
@[simp] theorem State.setDout_stepsLeft (s : State) (x : Block) : (s.setDout x).stepsLeft = s.stepsLeft := rfl

/-! `State.setResp`: the response. -/

@[simp] theorem State.setResp_ksize (s : State) (r : BusResponse) : (s.setResp r).ksize = s.ksize := rfl
@[simp] theorem State.setResp_keylen (s : State) (r : BusResponse) : (s.setResp r).keylen = s.keylen := rfl
@[simp] theorem State.setResp_blklen (s : State) (r : BusResponse) : (s.setResp r).blklen = s.blklen := rfl
@[simp] theorem State.setResp_keyValid (s : State) (r : BusResponse) : (s.setResp r).keyValid = s.keyValid := rfl
@[simp] theorem State.setResp_done (s : State) (r : BusResponse) : (s.setResp r).done = s.done := rfl
@[simp] theorem State.setResp_ovr (s : State) (r : BusResponse) : (s.setResp r).ovr = s.ovr := rfl
@[simp] theorem State.setResp_err (s : State) (r : BusResponse) : (s.setResp r).err = s.err := rfl
@[simp] theorem State.setResp_kvar (s : State) (r : BusResponse) : (s.setResp r).kvar = s.kvar := rfl
@[simp] theorem State.setResp_key (s : State) (r : BusResponse) : (s.setResp r).key = s.key := rfl
@[simp] theorem State.setResp_din (s : State) (r : BusResponse) : (s.setResp r).din = s.din := rfl
@[simp] theorem State.setResp_dout (s : State) (r : BusResponse) : (s.setResp r).dout = s.dout := rfl
@[simp] theorem State.setResp_sreg (s : State) (r : BusResponse) : (s.setResp r).sreg = s.sreg := rfl
@[simp] theorem State.setResp_w (s : State) (r : BusResponse) : (s.setResp r).w = s.w := rfl
@[simp] theorem State.setResp_phase (s : State) (r : BusResponse) : (s.setResp r).phase = s.phase := rfl
@[simp] theorem State.setResp_upc (s : State) (r : BusResponse) : (s.setResp r).upc = s.upc := rfl
@[simp] theorem State.setResp_opNk (s : State) (r : BusResponse) : (s.setResp r).opNk = s.opNk := rfl
@[simp] theorem State.setResp_opNr (s : State) (r : BusResponse) : (s.setResp r).opNr = s.opNr := rfl
@[simp] theorem State.setResp_basePage (s : State) (r : BusResponse) : (s.setResp r).basePage = s.basePage := rfl
@[simp] theorem State.setResp_turns (s : State) (r : BusResponse) : (s.setResp r).turns = s.turns := rfl
@[simp] theorem State.setResp_resp (s : State) (r : BusResponse) : (s.setResp r).resp = r := rfl
@[simp] theorem State.setResp_resets (s : State) (r : BusResponse) : (s.setResp r).resets = s.resets := rfl
@[simp] theorem State.setResp_lat (s : State) (r : BusResponse) : (s.setResp r).lat = s.lat := rfl
@[simp] theorem State.setResp_stepsLeft (s : State) (r : BusResponse) : (s.setResp r).stepsLeft = s.stepsLeft := rfl

/-! `State.setTurns`: the pending actions. -/

@[simp] theorem State.setTurns_ksize (s : State) (ts : List HostTurn) : (s.setTurns ts).ksize = s.ksize := rfl
@[simp] theorem State.setTurns_keylen (s : State) (ts : List HostTurn) : (s.setTurns ts).keylen = s.keylen := rfl
@[simp] theorem State.setTurns_blklen (s : State) (ts : List HostTurn) : (s.setTurns ts).blklen = s.blklen := rfl
@[simp] theorem State.setTurns_keyValid (s : State) (ts : List HostTurn) : (s.setTurns ts).keyValid = s.keyValid := rfl
@[simp] theorem State.setTurns_done (s : State) (ts : List HostTurn) : (s.setTurns ts).done = s.done := rfl
@[simp] theorem State.setTurns_ovr (s : State) (ts : List HostTurn) : (s.setTurns ts).ovr = s.ovr := rfl
@[simp] theorem State.setTurns_err (s : State) (ts : List HostTurn) : (s.setTurns ts).err = s.err := rfl
@[simp] theorem State.setTurns_kvar (s : State) (ts : List HostTurn) : (s.setTurns ts).kvar = s.kvar := rfl
@[simp] theorem State.setTurns_key (s : State) (ts : List HostTurn) : (s.setTurns ts).key = s.key := rfl
@[simp] theorem State.setTurns_din (s : State) (ts : List HostTurn) : (s.setTurns ts).din = s.din := rfl
@[simp] theorem State.setTurns_dout (s : State) (ts : List HostTurn) : (s.setTurns ts).dout = s.dout := rfl
@[simp] theorem State.setTurns_sreg (s : State) (ts : List HostTurn) : (s.setTurns ts).sreg = s.sreg := rfl
@[simp] theorem State.setTurns_w (s : State) (ts : List HostTurn) : (s.setTurns ts).w = s.w := rfl
@[simp] theorem State.setTurns_phase (s : State) (ts : List HostTurn) : (s.setTurns ts).phase = s.phase := rfl
@[simp] theorem State.setTurns_upc (s : State) (ts : List HostTurn) : (s.setTurns ts).upc = s.upc := rfl
@[simp] theorem State.setTurns_opNk (s : State) (ts : List HostTurn) : (s.setTurns ts).opNk = s.opNk := rfl
@[simp] theorem State.setTurns_opNr (s : State) (ts : List HostTurn) : (s.setTurns ts).opNr = s.opNr := rfl
@[simp] theorem State.setTurns_basePage (s : State) (ts : List HostTurn) : (s.setTurns ts).basePage = s.basePage := rfl
@[simp] theorem State.setTurns_turns (s : State) (ts : List HostTurn) : (s.setTurns ts).turns = ts := rfl
@[simp] theorem State.setTurns_resp (s : State) (ts : List HostTurn) : (s.setTurns ts).resp = s.resp := rfl
@[simp] theorem State.setTurns_resets (s : State) (ts : List HostTurn) : (s.setTurns ts).resets = s.resets := rfl
@[simp] theorem State.setTurns_lat (s : State) (ts : List HostTurn) : (s.setTurns ts).lat = s.lat := rfl
@[simp] theorem State.setTurns_stepsLeft (s : State) (ts : List HostTurn) : (s.setTurns ts).stepsLeft = s.stepsLeft := rfl

/-! `State.setOvr`: `STATUS.OVR <- b`. -/

@[simp] theorem State.setOvr_ksize (s : State) (b : Bool) : (s.setOvr b).ksize = s.ksize := rfl
@[simp] theorem State.setOvr_keylen (s : State) (b : Bool) : (s.setOvr b).keylen = s.keylen := rfl
@[simp] theorem State.setOvr_blklen (s : State) (b : Bool) : (s.setOvr b).blklen = s.blklen := rfl
@[simp] theorem State.setOvr_keyValid (s : State) (b : Bool) : (s.setOvr b).keyValid = s.keyValid := rfl
@[simp] theorem State.setOvr_done (s : State) (b : Bool) : (s.setOvr b).done = s.done := rfl
@[simp] theorem State.setOvr_ovr (s : State) (b : Bool) : (s.setOvr b).ovr = b := rfl
@[simp] theorem State.setOvr_err (s : State) (b : Bool) : (s.setOvr b).err = s.err := rfl
@[simp] theorem State.setOvr_kvar (s : State) (b : Bool) : (s.setOvr b).kvar = s.kvar := rfl
@[simp] theorem State.setOvr_key (s : State) (b : Bool) : (s.setOvr b).key = s.key := rfl
@[simp] theorem State.setOvr_din (s : State) (b : Bool) : (s.setOvr b).din = s.din := rfl
@[simp] theorem State.setOvr_dout (s : State) (b : Bool) : (s.setOvr b).dout = s.dout := rfl
@[simp] theorem State.setOvr_sreg (s : State) (b : Bool) : (s.setOvr b).sreg = s.sreg := rfl
@[simp] theorem State.setOvr_w (s : State) (b : Bool) : (s.setOvr b).w = s.w := rfl
@[simp] theorem State.setOvr_phase (s : State) (b : Bool) : (s.setOvr b).phase = s.phase := rfl
@[simp] theorem State.setOvr_upc (s : State) (b : Bool) : (s.setOvr b).upc = s.upc := rfl
@[simp] theorem State.setOvr_opNk (s : State) (b : Bool) : (s.setOvr b).opNk = s.opNk := rfl
@[simp] theorem State.setOvr_opNr (s : State) (b : Bool) : (s.setOvr b).opNr = s.opNr := rfl
@[simp] theorem State.setOvr_basePage (s : State) (b : Bool) : (s.setOvr b).basePage = s.basePage := rfl
@[simp] theorem State.setOvr_turns (s : State) (b : Bool) : (s.setOvr b).turns = s.turns := rfl
@[simp] theorem State.setOvr_resp (s : State) (b : Bool) : (s.setOvr b).resp = s.resp := rfl
@[simp] theorem State.setOvr_resets (s : State) (b : Bool) : (s.setOvr b).resets = s.resets := rfl
@[simp] theorem State.setOvr_lat (s : State) (b : Bool) : (s.setOvr b).lat = s.lat := rfl
@[simp] theorem State.setOvr_stepsLeft (s : State) (b : Bool) : (s.setOvr b).stepsLeft = s.stepsLeft := rfl

/-! `State.setKeyValid`: `STATUS.KEY_VALID <- b`. -/

@[simp] theorem State.setKeyValid_ksize (s : State) (b : Bool) : (s.setKeyValid b).ksize = s.ksize := rfl
@[simp] theorem State.setKeyValid_keylen (s : State) (b : Bool) : (s.setKeyValid b).keylen = s.keylen := rfl
@[simp] theorem State.setKeyValid_blklen (s : State) (b : Bool) : (s.setKeyValid b).blklen = s.blklen := rfl
@[simp] theorem State.setKeyValid_keyValid (s : State) (b : Bool) : (s.setKeyValid b).keyValid = b := rfl
@[simp] theorem State.setKeyValid_done (s : State) (b : Bool) : (s.setKeyValid b).done = s.done := rfl
@[simp] theorem State.setKeyValid_ovr (s : State) (b : Bool) : (s.setKeyValid b).ovr = s.ovr := rfl
@[simp] theorem State.setKeyValid_err (s : State) (b : Bool) : (s.setKeyValid b).err = s.err := rfl
@[simp] theorem State.setKeyValid_kvar (s : State) (b : Bool) : (s.setKeyValid b).kvar = s.kvar := rfl
@[simp] theorem State.setKeyValid_key (s : State) (b : Bool) : (s.setKeyValid b).key = s.key := rfl
@[simp] theorem State.setKeyValid_din (s : State) (b : Bool) : (s.setKeyValid b).din = s.din := rfl
@[simp] theorem State.setKeyValid_dout (s : State) (b : Bool) : (s.setKeyValid b).dout = s.dout := rfl
@[simp] theorem State.setKeyValid_sreg (s : State) (b : Bool) : (s.setKeyValid b).sreg = s.sreg := rfl
@[simp] theorem State.setKeyValid_w (s : State) (b : Bool) : (s.setKeyValid b).w = s.w := rfl
@[simp] theorem State.setKeyValid_phase (s : State) (b : Bool) : (s.setKeyValid b).phase = s.phase := rfl
@[simp] theorem State.setKeyValid_upc (s : State) (b : Bool) : (s.setKeyValid b).upc = s.upc := rfl
@[simp] theorem State.setKeyValid_opNk (s : State) (b : Bool) : (s.setKeyValid b).opNk = s.opNk := rfl
@[simp] theorem State.setKeyValid_opNr (s : State) (b : Bool) : (s.setKeyValid b).opNr = s.opNr := rfl
@[simp] theorem State.setKeyValid_basePage (s : State) (b : Bool) : (s.setKeyValid b).basePage = s.basePage := rfl
@[simp] theorem State.setKeyValid_turns (s : State) (b : Bool) : (s.setKeyValid b).turns = s.turns := rfl
@[simp] theorem State.setKeyValid_resp (s : State) (b : Bool) : (s.setKeyValid b).resp = s.resp := rfl
@[simp] theorem State.setKeyValid_resets (s : State) (b : Bool) : (s.setKeyValid b).resets = s.resets := rfl
@[simp] theorem State.setKeyValid_lat (s : State) (b : Bool) : (s.setKeyValid b).lat = s.lat := rfl
@[simp] theorem State.setKeyValid_stepsLeft (s : State) (b : Bool) : (s.setKeyValid b).stepsLeft = s.stepsLeft := rfl

/-! `State.setOutcome`: `STATUS.DONE <- d; STATUS.ERR <- c`. -/

@[simp] theorem State.setOutcome_ksize (s : State) (d : Bool) (c : ErrCode) : (s.setOutcome d c).ksize = s.ksize := rfl
@[simp] theorem State.setOutcome_keylen (s : State) (d : Bool) (c : ErrCode) : (s.setOutcome d c).keylen = s.keylen := rfl
@[simp] theorem State.setOutcome_blklen (s : State) (d : Bool) (c : ErrCode) : (s.setOutcome d c).blklen = s.blklen := rfl
@[simp] theorem State.setOutcome_keyValid (s : State) (d : Bool) (c : ErrCode) : (s.setOutcome d c).keyValid = s.keyValid := rfl
@[simp] theorem State.setOutcome_done (s : State) (d : Bool) (c : ErrCode) : (s.setOutcome d c).done = d := rfl
@[simp] theorem State.setOutcome_ovr (s : State) (d : Bool) (c : ErrCode) : (s.setOutcome d c).ovr = s.ovr := rfl
@[simp] theorem State.setOutcome_err (s : State) (d : Bool) (c : ErrCode) : (s.setOutcome d c).err = c.code := rfl
@[simp] theorem State.setOutcome_kvar (s : State) (d : Bool) (c : ErrCode) : (s.setOutcome d c).kvar = s.kvar := rfl
@[simp] theorem State.setOutcome_key (s : State) (d : Bool) (c : ErrCode) : (s.setOutcome d c).key = s.key := rfl
@[simp] theorem State.setOutcome_din (s : State) (d : Bool) (c : ErrCode) : (s.setOutcome d c).din = s.din := rfl
@[simp] theorem State.setOutcome_dout (s : State) (d : Bool) (c : ErrCode) : (s.setOutcome d c).dout = s.dout := rfl
@[simp] theorem State.setOutcome_sreg (s : State) (d : Bool) (c : ErrCode) : (s.setOutcome d c).sreg = s.sreg := rfl
@[simp] theorem State.setOutcome_w (s : State) (d : Bool) (c : ErrCode) : (s.setOutcome d c).w = s.w := rfl
@[simp] theorem State.setOutcome_phase (s : State) (d : Bool) (c : ErrCode) : (s.setOutcome d c).phase = s.phase := rfl
@[simp] theorem State.setOutcome_upc (s : State) (d : Bool) (c : ErrCode) : (s.setOutcome d c).upc = s.upc := rfl
@[simp] theorem State.setOutcome_opNk (s : State) (d : Bool) (c : ErrCode) : (s.setOutcome d c).opNk = s.opNk := rfl
@[simp] theorem State.setOutcome_opNr (s : State) (d : Bool) (c : ErrCode) : (s.setOutcome d c).opNr = s.opNr := rfl
@[simp] theorem State.setOutcome_basePage (s : State) (d : Bool) (c : ErrCode) : (s.setOutcome d c).basePage = s.basePage := rfl
@[simp] theorem State.setOutcome_turns (s : State) (d : Bool) (c : ErrCode) : (s.setOutcome d c).turns = s.turns := rfl
@[simp] theorem State.setOutcome_resp (s : State) (d : Bool) (c : ErrCode) : (s.setOutcome d c).resp = s.resp := rfl
@[simp] theorem State.setOutcome_resets (s : State) (d : Bool) (c : ErrCode) : (s.setOutcome d c).resets = s.resets := rfl
@[simp] theorem State.setOutcome_lat (s : State) (d : Bool) (c : ErrCode) : (s.setOutcome d c).lat = s.lat := rfl
@[simp] theorem State.setOutcome_stepsLeft (s : State) (d : Bool) (c : ErrCode) : (s.setOutcome d c).stepsLeft = s.stepsLeft := rfl

/-! `State.launch`: the start of a program. -/

@[simp] theorem State.launch_ksize (s : State) (p : Phase) (v : Variant) : (s.launch p v).ksize = s.ksize := rfl
@[simp] theorem State.launch_keylen (s : State) (p : Phase) (v : Variant) : (s.launch p v).keylen = s.keylen := rfl
@[simp] theorem State.launch_blklen (s : State) (p : Phase) (v : Variant) : (s.launch p v).blklen = s.blklen := rfl
@[simp] theorem State.launch_keyValid (s : State) (p : Phase) (v : Variant) : (s.launch p v).keyValid = s.keyValid := rfl
@[simp] theorem State.launch_done (s : State) (p : Phase) (v : Variant) : (s.launch p v).done = s.done := rfl
@[simp] theorem State.launch_ovr (s : State) (p : Phase) (v : Variant) : (s.launch p v).ovr = s.ovr := rfl
@[simp] theorem State.launch_err (s : State) (p : Phase) (v : Variant) : (s.launch p v).err = s.err := rfl
@[simp] theorem State.launch_kvar (s : State) (p : Phase) (v : Variant) : (s.launch p v).kvar = s.kvar := rfl
@[simp] theorem State.launch_key (s : State) (p : Phase) (v : Variant) : (s.launch p v).key = s.key := rfl
@[simp] theorem State.launch_din (s : State) (p : Phase) (v : Variant) : (s.launch p v).din = s.din := rfl
@[simp] theorem State.launch_dout (s : State) (p : Phase) (v : Variant) : (s.launch p v).dout = s.dout := rfl
@[simp] theorem State.launch_sreg (s : State) (p : Phase) (v : Variant) : (s.launch p v).sreg = s.sreg := rfl
@[simp] theorem State.launch_w (s : State) (p : Phase) (v : Variant) : (s.launch p v).w = s.w := rfl
@[simp] theorem State.launch_phase (s : State) (p : Phase) (v : Variant) : (s.launch p v).phase = p := rfl
@[simp] theorem State.launch_upc (s : State) (p : Phase) (v : Variant) : (s.launch p v).upc = 0#6 := rfl
@[simp] theorem State.launch_opNk (s : State) (p : Phase) (v : Variant) : (s.launch p v).opNk = BitVec.ofNat 4 v.nk := rfl
@[simp] theorem State.launch_opNr (s : State) (p : Phase) (v : Variant) : (s.launch p v).opNr = BitVec.ofNat 4 v.nr := rfl
@[simp] theorem State.launch_basePage (s : State) (p : Phase) (v : Variant) : (s.launch p v).basePage = s.basePage := rfl
@[simp] theorem State.launch_turns (s : State) (p : Phase) (v : Variant) : (s.launch p v).turns = s.turns := rfl
@[simp] theorem State.launch_resp (s : State) (p : Phase) (v : Variant) : (s.launch p v).resp = s.resp := rfl
@[simp] theorem State.launch_resets (s : State) (p : Phase) (v : Variant) : (s.launch p v).resets = s.resets := rfl
@[simp] theorem State.launch_lat (s : State) (p : Phase) (v : Variant) : (s.launch p v).lat = s.lat := rfl
@[simp] theorem State.launch_stepsLeft (s : State) (p : Phase) (v : Variant) : (s.launch p v).stepsLeft = s.lat.steps p v := rfl

/-! `State.nextUop`: `UPC <- UPC + 1`. -/

@[simp] theorem State.nextUop_ksize (s : State) : (s.nextUop).ksize = s.ksize := rfl
@[simp] theorem State.nextUop_keylen (s : State) : (s.nextUop).keylen = s.keylen := rfl
@[simp] theorem State.nextUop_blklen (s : State) : (s.nextUop).blklen = s.blklen := rfl
@[simp] theorem State.nextUop_keyValid (s : State) : (s.nextUop).keyValid = s.keyValid := rfl
@[simp] theorem State.nextUop_done (s : State) : (s.nextUop).done = s.done := rfl
@[simp] theorem State.nextUop_ovr (s : State) : (s.nextUop).ovr = s.ovr := rfl
@[simp] theorem State.nextUop_err (s : State) : (s.nextUop).err = s.err := rfl
@[simp] theorem State.nextUop_kvar (s : State) : (s.nextUop).kvar = s.kvar := rfl
@[simp] theorem State.nextUop_key (s : State) : (s.nextUop).key = s.key := rfl
@[simp] theorem State.nextUop_din (s : State) : (s.nextUop).din = s.din := rfl
@[simp] theorem State.nextUop_dout (s : State) : (s.nextUop).dout = s.dout := rfl
@[simp] theorem State.nextUop_sreg (s : State) : (s.nextUop).sreg = s.sreg := rfl
@[simp] theorem State.nextUop_w (s : State) : (s.nextUop).w = s.w := rfl
@[simp] theorem State.nextUop_phase (s : State) : (s.nextUop).phase = s.phase := rfl
@[simp] theorem State.nextUop_upc (s : State) : (s.nextUop).upc = s.upc + 1#6 := rfl
@[simp] theorem State.nextUop_opNk (s : State) : (s.nextUop).opNk = s.opNk := rfl
@[simp] theorem State.nextUop_opNr (s : State) : (s.nextUop).opNr = s.opNr := rfl
@[simp] theorem State.nextUop_basePage (s : State) : (s.nextUop).basePage = s.basePage := rfl
@[simp] theorem State.nextUop_turns (s : State) : (s.nextUop).turns = s.turns := rfl
@[simp] theorem State.nextUop_resp (s : State) : (s.nextUop).resp = s.resp := rfl
@[simp] theorem State.nextUop_resets (s : State) : (s.nextUop).resets = s.resets := rfl
@[simp] theorem State.nextUop_lat (s : State) : (s.nextUop).lat = s.lat := rfl
@[simp] theorem State.nextUop_stepsLeft (s : State) : (s.nextUop).stepsLeft = s.stepsLeft := rfl

/-! `State.tick`: one engine step less to come. -/

@[simp] theorem State.tick_ksize (s : State) : (s.tick).ksize = s.ksize := rfl
@[simp] theorem State.tick_keylen (s : State) : (s.tick).keylen = s.keylen := rfl
@[simp] theorem State.tick_blklen (s : State) : (s.tick).blklen = s.blklen := rfl
@[simp] theorem State.tick_keyValid (s : State) : (s.tick).keyValid = s.keyValid := rfl
@[simp] theorem State.tick_done (s : State) : (s.tick).done = s.done := rfl
@[simp] theorem State.tick_ovr (s : State) : (s.tick).ovr = s.ovr := rfl
@[simp] theorem State.tick_err (s : State) : (s.tick).err = s.err := rfl
@[simp] theorem State.tick_kvar (s : State) : (s.tick).kvar = s.kvar := rfl
@[simp] theorem State.tick_key (s : State) : (s.tick).key = s.key := rfl
@[simp] theorem State.tick_din (s : State) : (s.tick).din = s.din := rfl
@[simp] theorem State.tick_dout (s : State) : (s.tick).dout = s.dout := rfl
@[simp] theorem State.tick_sreg (s : State) : (s.tick).sreg = s.sreg := rfl
@[simp] theorem State.tick_w (s : State) : (s.tick).w = s.w := rfl
@[simp] theorem State.tick_phase (s : State) : (s.tick).phase = s.phase := rfl
@[simp] theorem State.tick_upc (s : State) : (s.tick).upc = s.upc := rfl
@[simp] theorem State.tick_opNk (s : State) : (s.tick).opNk = s.opNk := rfl
@[simp] theorem State.tick_opNr (s : State) : (s.tick).opNr = s.opNr := rfl
@[simp] theorem State.tick_basePage (s : State) : (s.tick).basePage = s.basePage := rfl
@[simp] theorem State.tick_turns (s : State) : (s.tick).turns = s.turns := rfl
@[simp] theorem State.tick_resp (s : State) : (s.tick).resp = s.resp := rfl
@[simp] theorem State.tick_resets (s : State) : (s.tick).resets = s.resets := rfl
@[simp] theorem State.tick_lat (s : State) : (s.tick).lat = s.lat := rfl
@[simp] theorem State.tick_stepsLeft (s : State) : (s.tick).stepsLeft = s.stepsLeft - 1 := rfl

/-! `State.complete`: the completion step. -/

@[simp] theorem State.complete_ksize (s : State) : (s.complete).ksize = s.ksize := rfl
@[simp] theorem State.complete_keylen (s : State) : (s.complete).keylen = s.keylen := rfl
@[simp] theorem State.complete_blklen (s : State) : (s.complete).blklen = s.blklen := rfl
@[simp] theorem State.complete_keyValid (s : State) : (s.complete).keyValid = if s.phase = .kexp then true else s.keyValid := rfl
@[simp] theorem State.complete_done (s : State) : (s.complete).done = true := rfl
@[simp] theorem State.complete_ovr (s : State) : (s.complete).ovr = s.ovr := rfl
@[simp] theorem State.complete_err (s : State) : (s.complete).err = s.err := rfl
@[simp] theorem State.complete_kvar (s : State) : (s.complete).kvar = if s.phase = .kexp then kvarOfNk s.opNk else s.kvar := rfl
@[simp] theorem State.complete_key (s : State) : (s.complete).key = s.key := rfl
@[simp] theorem State.complete_din (s : State) : (s.complete).din = s.din := rfl
@[simp] theorem State.complete_dout (s : State) : (s.complete).dout = s.dout := rfl
@[simp] theorem State.complete_sreg (s : State) : (s.complete).sreg = s.sreg := rfl
@[simp] theorem State.complete_w (s : State) : (s.complete).w = s.w := rfl
@[simp] theorem State.complete_phase (s : State) : (s.complete).phase = .idle := rfl
@[simp] theorem State.complete_upc (s : State) : (s.complete).upc = 0#6 := rfl
@[simp] theorem State.complete_opNk (s : State) : (s.complete).opNk = s.opNk := rfl
@[simp] theorem State.complete_opNr (s : State) : (s.complete).opNr = s.opNr := rfl
@[simp] theorem State.complete_basePage (s : State) : (s.complete).basePage = s.basePage := rfl
@[simp] theorem State.complete_turns (s : State) : (s.complete).turns = s.turns := rfl
@[simp] theorem State.complete_resp (s : State) : (s.complete).resp = s.resp := rfl
@[simp] theorem State.complete_resets (s : State) : (s.complete).resets = s.resets := rfl
@[simp] theorem State.complete_lat (s : State) : (s.complete).lat = s.lat := rfl
@[simp] theorem State.complete_stepsLeft (s : State) : (s.complete).stepsLeft = 0 := rfl

/-! `State.writeCtrl`: a CTRL write. -/

@[simp] theorem State.writeCtrl_ksize (s : State) (v : Word) : (s.writeCtrl v).ksize = v.extractLsb' 0 2 := rfl
@[simp] theorem State.writeCtrl_keylen (s : State) (v : Word) : (s.writeCtrl v).keylen = v.extractLsb' 8 8 := rfl
@[simp] theorem State.writeCtrl_blklen (s : State) (v : Word) : (s.writeCtrl v).blklen = v.extractLsb' 16 8 := rfl
@[simp] theorem State.writeCtrl_keyValid (s : State) (v : Word) : (s.writeCtrl v).keyValid = s.keyValid := rfl
@[simp] theorem State.writeCtrl_done (s : State) (v : Word) : (s.writeCtrl v).done = s.done := rfl
@[simp] theorem State.writeCtrl_ovr (s : State) (v : Word) : (s.writeCtrl v).ovr = s.ovr := rfl
@[simp] theorem State.writeCtrl_err (s : State) (v : Word) : (s.writeCtrl v).err = s.err := rfl
@[simp] theorem State.writeCtrl_kvar (s : State) (v : Word) : (s.writeCtrl v).kvar = s.kvar := rfl
@[simp] theorem State.writeCtrl_key (s : State) (v : Word) : (s.writeCtrl v).key = s.key := rfl
@[simp] theorem State.writeCtrl_din (s : State) (v : Word) : (s.writeCtrl v).din = s.din := rfl
@[simp] theorem State.writeCtrl_dout (s : State) (v : Word) : (s.writeCtrl v).dout = s.dout := rfl
@[simp] theorem State.writeCtrl_sreg (s : State) (v : Word) : (s.writeCtrl v).sreg = s.sreg := rfl
@[simp] theorem State.writeCtrl_w (s : State) (v : Word) : (s.writeCtrl v).w = s.w := rfl
@[simp] theorem State.writeCtrl_phase (s : State) (v : Word) : (s.writeCtrl v).phase = s.phase := rfl
@[simp] theorem State.writeCtrl_upc (s : State) (v : Word) : (s.writeCtrl v).upc = s.upc := rfl
@[simp] theorem State.writeCtrl_opNk (s : State) (v : Word) : (s.writeCtrl v).opNk = s.opNk := rfl
@[simp] theorem State.writeCtrl_opNr (s : State) (v : Word) : (s.writeCtrl v).opNr = s.opNr := rfl
@[simp] theorem State.writeCtrl_basePage (s : State) (v : Word) : (s.writeCtrl v).basePage = s.basePage := rfl
@[simp] theorem State.writeCtrl_turns (s : State) (v : Word) : (s.writeCtrl v).turns = s.turns := rfl
@[simp] theorem State.writeCtrl_resp (s : State) (v : Word) : (s.writeCtrl v).resp = s.resp := rfl
@[simp] theorem State.writeCtrl_resets (s : State) (v : Word) : (s.writeCtrl v).resets = s.resets := rfl
@[simp] theorem State.writeCtrl_lat (s : State) (v : Word) : (s.writeCtrl v).lat = s.lat := rfl
@[simp] theorem State.writeCtrl_stepsLeft (s : State) (v : Word) : (s.writeCtrl v).stepsLeft = s.stepsLeft := rfl

/-! `State.writeKey`: a KEY write. -/

@[simp] theorem State.writeKey_ksize (s : State) (k : Fin 8) (v : Word) : (s.writeKey k v).ksize = s.ksize := rfl
@[simp] theorem State.writeKey_keylen (s : State) (k : Fin 8) (v : Word) : (s.writeKey k v).keylen = s.keylen := rfl
@[simp] theorem State.writeKey_blklen (s : State) (k : Fin 8) (v : Word) : (s.writeKey k v).blklen = s.blklen := rfl
@[simp] theorem State.writeKey_keyValid (s : State) (k : Fin 8) (v : Word) : (s.writeKey k v).keyValid = s.keyValid := rfl
@[simp] theorem State.writeKey_done (s : State) (k : Fin 8) (v : Word) : (s.writeKey k v).done = s.done := rfl
@[simp] theorem State.writeKey_ovr (s : State) (k : Fin 8) (v : Word) : (s.writeKey k v).ovr = s.ovr := rfl
@[simp] theorem State.writeKey_err (s : State) (k : Fin 8) (v : Word) : (s.writeKey k v).err = s.err := rfl
@[simp] theorem State.writeKey_kvar (s : State) (k : Fin 8) (v : Word) : (s.writeKey k v).kvar = s.kvar := rfl
@[simp] theorem State.writeKey_key (s : State) (k : Fin 8) (v : Word) : (s.writeKey k v).key = s.key.set k v := rfl
@[simp] theorem State.writeKey_din (s : State) (k : Fin 8) (v : Word) : (s.writeKey k v).din = s.din := rfl
@[simp] theorem State.writeKey_dout (s : State) (k : Fin 8) (v : Word) : (s.writeKey k v).dout = s.dout := rfl
@[simp] theorem State.writeKey_sreg (s : State) (k : Fin 8) (v : Word) : (s.writeKey k v).sreg = s.sreg := rfl
@[simp] theorem State.writeKey_w (s : State) (k : Fin 8) (v : Word) : (s.writeKey k v).w = s.w := rfl
@[simp] theorem State.writeKey_phase (s : State) (k : Fin 8) (v : Word) : (s.writeKey k v).phase = s.phase := rfl
@[simp] theorem State.writeKey_upc (s : State) (k : Fin 8) (v : Word) : (s.writeKey k v).upc = s.upc := rfl
@[simp] theorem State.writeKey_opNk (s : State) (k : Fin 8) (v : Word) : (s.writeKey k v).opNk = s.opNk := rfl
@[simp] theorem State.writeKey_opNr (s : State) (k : Fin 8) (v : Word) : (s.writeKey k v).opNr = s.opNr := rfl
@[simp] theorem State.writeKey_basePage (s : State) (k : Fin 8) (v : Word) : (s.writeKey k v).basePage = s.basePage := rfl
@[simp] theorem State.writeKey_turns (s : State) (k : Fin 8) (v : Word) : (s.writeKey k v).turns = s.turns := rfl
@[simp] theorem State.writeKey_resp (s : State) (k : Fin 8) (v : Word) : (s.writeKey k v).resp = s.resp := rfl
@[simp] theorem State.writeKey_resets (s : State) (k : Fin 8) (v : Word) : (s.writeKey k v).resets = s.resets := rfl
@[simp] theorem State.writeKey_lat (s : State) (k : Fin 8) (v : Word) : (s.writeKey k v).lat = s.lat := rfl
@[simp] theorem State.writeKey_stepsLeft (s : State) (k : Fin 8) (v : Word) : (s.writeKey k v).stepsLeft = s.stepsLeft := rfl

/-! `State.writeDin`: a DIN write. -/

@[simp] theorem State.writeDin_ksize (s : State) (k : Fin 4) (v : Word) : (s.writeDin k v).ksize = s.ksize := rfl
@[simp] theorem State.writeDin_keylen (s : State) (k : Fin 4) (v : Word) : (s.writeDin k v).keylen = s.keylen := rfl
@[simp] theorem State.writeDin_blklen (s : State) (k : Fin 4) (v : Word) : (s.writeDin k v).blklen = s.blklen := rfl
@[simp] theorem State.writeDin_keyValid (s : State) (k : Fin 4) (v : Word) : (s.writeDin k v).keyValid = s.keyValid := rfl
@[simp] theorem State.writeDin_done (s : State) (k : Fin 4) (v : Word) : (s.writeDin k v).done = s.done := rfl
@[simp] theorem State.writeDin_ovr (s : State) (k : Fin 4) (v : Word) : (s.writeDin k v).ovr = s.ovr := rfl
@[simp] theorem State.writeDin_err (s : State) (k : Fin 4) (v : Word) : (s.writeDin k v).err = s.err := rfl
@[simp] theorem State.writeDin_kvar (s : State) (k : Fin 4) (v : Word) : (s.writeDin k v).kvar = s.kvar := rfl
@[simp] theorem State.writeDin_key (s : State) (k : Fin 4) (v : Word) : (s.writeDin k v).key = s.key := rfl
@[simp] theorem State.writeDin_din (s : State) (k : Fin 4) (v : Word) : (s.writeDin k v).din = s.din.set k v := rfl
@[simp] theorem State.writeDin_dout (s : State) (k : Fin 4) (v : Word) : (s.writeDin k v).dout = s.dout := rfl
@[simp] theorem State.writeDin_sreg (s : State) (k : Fin 4) (v : Word) : (s.writeDin k v).sreg = s.sreg := rfl
@[simp] theorem State.writeDin_w (s : State) (k : Fin 4) (v : Word) : (s.writeDin k v).w = s.w := rfl
@[simp] theorem State.writeDin_phase (s : State) (k : Fin 4) (v : Word) : (s.writeDin k v).phase = s.phase := rfl
@[simp] theorem State.writeDin_upc (s : State) (k : Fin 4) (v : Word) : (s.writeDin k v).upc = s.upc := rfl
@[simp] theorem State.writeDin_opNk (s : State) (k : Fin 4) (v : Word) : (s.writeDin k v).opNk = s.opNk := rfl
@[simp] theorem State.writeDin_opNr (s : State) (k : Fin 4) (v : Word) : (s.writeDin k v).opNr = s.opNr := rfl
@[simp] theorem State.writeDin_basePage (s : State) (k : Fin 4) (v : Word) : (s.writeDin k v).basePage = s.basePage := rfl
@[simp] theorem State.writeDin_turns (s : State) (k : Fin 4) (v : Word) : (s.writeDin k v).turns = s.turns := rfl
@[simp] theorem State.writeDin_resp (s : State) (k : Fin 4) (v : Word) : (s.writeDin k v).resp = s.resp := rfl
@[simp] theorem State.writeDin_resets (s : State) (k : Fin 4) (v : Word) : (s.writeDin k v).resets = s.resets := rfl
@[simp] theorem State.writeDin_lat (s : State) (k : Fin 4) (v : Word) : (s.writeDin k v).lat = s.lat := rfl
@[simp] theorem State.writeDin_stepsLeft (s : State) (k : Fin 4) (v : Word) : (s.writeDin k v).stepsLeft = s.stepsLeft := rfl

/-! A command error and an overrun are updates above (R202, R201). -/

@[simp] theorem State.fail_eq (s : State) (c : ErrCode) : s.fail c = s.setOutcome true c := rfl

@[simp] theorem State.overrun_eq (s : State) : s.overrun = s.setOvr true := rfl

/-! The reset input (R271): the host's pending actions, BASE_ADDR, the latencies and the count of resets apart, nothing of the old state
is left. -/

@[simp] theorem State.resetInput_ksize (s : State) : s.resetInput.ksize = State.reset.ksize := rfl
@[simp] theorem State.resetInput_keylen (s : State) : s.resetInput.keylen = State.reset.keylen := rfl
@[simp] theorem State.resetInput_blklen (s : State) : s.resetInput.blklen = State.reset.blklen := rfl
@[simp] theorem State.resetInput_keyValid (s : State) : s.resetInput.keyValid = State.reset.keyValid := rfl
@[simp] theorem State.resetInput_done (s : State) : s.resetInput.done = State.reset.done := rfl
@[simp] theorem State.resetInput_ovr (s : State) : s.resetInput.ovr = State.reset.ovr := rfl
@[simp] theorem State.resetInput_err (s : State) : s.resetInput.err = State.reset.err := rfl
@[simp] theorem State.resetInput_kvar (s : State) : s.resetInput.kvar = State.reset.kvar := rfl
@[simp] theorem State.resetInput_key (s : State) : s.resetInput.key = State.reset.key := rfl
@[simp] theorem State.resetInput_din (s : State) : s.resetInput.din = State.reset.din := rfl
@[simp] theorem State.resetInput_dout (s : State) : s.resetInput.dout = State.reset.dout := rfl
@[simp] theorem State.resetInput_sreg (s : State) : s.resetInput.sreg = Config.freeS s.resets := rfl
@[simp] theorem State.resetInput_w (s : State) : s.resetInput.w = Config.freeW s.resets := rfl
@[simp] theorem State.resetInput_phase (s : State) : s.resetInput.phase = State.reset.phase := rfl
@[simp] theorem State.resetInput_upc (s : State) : s.resetInput.upc = State.reset.upc := rfl
@[simp] theorem State.resetInput_opNk (s : State) : s.resetInput.opNk = State.reset.opNk := rfl
@[simp] theorem State.resetInput_opNr (s : State) : s.resetInput.opNr = State.reset.opNr := rfl
@[simp] theorem State.resetInput_basePage (s : State) : s.resetInput.basePage = s.basePage := rfl
@[simp] theorem State.resetInput_turns (s : State) : s.resetInput.turns = s.turns := rfl
@[simp] theorem State.resetInput_resp (s : State) : s.resetInput.resp = State.reset.resp := rfl
@[simp] theorem State.resetInput_resets (s : State) : s.resetInput.resets = s.resets + 1 := rfl
@[simp] theorem State.resetInput_lat (s : State) : s.resetInput.lat = s.lat := rfl
@[simp] theorem State.resetInput_stepsLeft (s : State) : s.resetInput.stepsLeft = 0 := rfl

end Sys2Proof.Machine
end

