-- ==== Sys2Proof/Laws/Ops.lean ====
section
/-! SUPPORT. For each shared operation one lemma that says once everything it can do; later proofs cite these instead of
unfolding the operation. -/

namespace Sys2Proof.Machine

/-- Only a next state goes on (`andThen`). -/
theorem andThen_next {o : Result} {f : State → State} {t : State} :
    andThen o f = .next t ↔ ∃ u, o = .next u ∧ t = f u := by
  cases o with
  | next u => simp [andThen, eq_comm]
  | fault r => cases r
  | refused r => simp [andThen]

theorem andThen_refused {o : Result} {f : State → State} {r : Refusal} :
    andThen o f = .refused r ↔ o = .refused r := by
  cases o with
  | next u => simp [andThen]
  | fault r => cases r
  | refused r => simp [andThen]

/-- A CMD write while BUSY is an overrun (R201). -/
theorem commandRequest_busy {v : Word} {run : State → Result} {s : State} (h : s.phase ≠ .idle) :
    commandRequest v run s = .next (s.setOvr true) := by
  simp [commandRequest, State.busy, h]

/-- A CMD write while IDLE whose checks pass has the command's own effect, with OVR cleared (R200). -/
theorem commandRequest_accepted {v : Word} {run : State → Result} {s : State} (h : s.phase = .idle)
    (hv : validate v s = .ok) : commandRequest v run s = run (s.setOvr false) := by
  simp [commandRequest, State.busy, accept, h, hv]

/-- A CMD write while IDLE that fails a check is a command error, and nothing else (R202, R249). -/
theorem commandRequest_failed {v : Word} {run : State → Result} {s : State} (h : s.phase = .idle)
    (hv : validate v s ≠ .ok) :
    commandRequest v run s = .next ((s.setOvr false).setOutcome true (validate v s)) := by
  simp [commandRequest, State.busy, accept, h, hv]

/-- Everything a CMD write can do. -/
theorem commandRequest_cases (v : Word) (run : State → Result) (s : State) :
    (s.phase ≠ .idle ∧ commandRequest v run s = .next (s.setOvr true)) ∨
    (s.phase = .idle ∧ validate v s ≠ .ok ∧
      commandRequest v run s = .next ((s.setOvr false).setOutcome true (validate v s))) ∨
    (s.phase = .idle ∧ validate v s = .ok ∧ commandRequest v run s = run (s.setOvr false)) := by
  by_cases h : s.phase = .idle
  · by_cases hv : validate v s = .ok
    · exact .inr (.inr ⟨h, hv, commandRequest_accepted h hv⟩)
    · exact .inr (.inl ⟨h, hv, commandRequest_failed h hv⟩)
  · exact .inl ⟨h, commandRequest_busy h⟩

/-- Everything `start` can do. -/
theorem start_next {p : Phase} {code : BitVec 2} {s t : State} :
    start p code s = .next t ↔
      ∃ v, variantOf code = some v ∧ t = (s.setOutcome false .ok).launch p v := by
  unfold start
  cases variantOf code with
  | none => simp
  | some v => simpa using ⟨Eq.symm, Eq.symm⟩

theorem start_refused {p : Phase} {code : BitVec 2} {s : State} {r : Refusal} :
    start p code s = .refused r ↔ variantOf code = none ∧ r = .noVariant := by
  unfold start
  cases variantOf code with
  | none => simpa using ⟨Eq.symm, Eq.symm⟩
  | some v => simp

/-- Everything `withIdx` can do (R109). -/
theorem withIdx_next {i : Instr} {s t u : State} :
    withIdx i s t = .next u ↔ idxInRange s.opNk.toNat s.opNr.toNat i = true ∧ u = t := by
  unfold withIdx
  split <;> rename_i h
  · simpa [h] using ⟨Eq.symm, Eq.symm⟩
  · simp [h]

theorem withIdx_refused {i : Instr} {s t : State} {r : Refusal} :
    withIdx i s t = .refused r ↔
      idxInRange s.opNk.toNat s.opNr.toNat i = false ∧ r = .idxOutOfRange := by
  unfold withIdx
  split <;> rename_i h
  · simp [h]
  · simpa [h] using ⟨Eq.symm, Eq.symm⟩

/-- The checks of a value that names no command (R102, R246). -/
theorem validate_illegal {v : Word} {s : State} (h : 4 ≤ v.toNat) : validate v s = .illegalCmd := by
  have h0 : v ≠ 0#32 := by rintro rfl; simp at h
  have h1 : v ≠ 1#32 := by rintro rfl; simp at h
  have h2 : v ≠ 2#32 := by rintro rfl; simp at h
  have h3 : v ≠ 3#32 := by rintro rfl; simp at h
  simp [validate, h0, h1, h2, h3]

/-- The variant codes of a KEYEXP that passes its checks (R204, R244). -/
theorem validateKeyexp_ok {s : State} :
    validateKeyexp s = .ok ↔ ∃ v, variantOf s.ksize = some v ∧ s.keylen.toNat = 4 * v.nk := by
  unfold validateKeyexp
  cases variantOf s.ksize with
  | none => simp
  | some v => by_cases h : s.keylen.toNat = 4 * v.nk <;> simp [h]

/-- The checks of ENCRYPT and DECRYPT pass (R205, R206). -/
theorem validateBlock_ok {s : State} :
    validateBlock s = .ok ↔ s.keyValid = true ∧ s.blklen.toNat = 16 := by
  unfold validateBlock
  cases s.keyValid <;> by_cases h : s.blklen.toNat = 16 <;> simp [h]

/-- Only a next state goes on (`thenDo`). -/
theorem thenDo_next {o : Result} {f : State → Result} {t : State} :
    thenDo o f = .next t ↔ ∃ u, o = .next u ∧ f u = .next t := by
  cases o with
  | next u => simp [thenDo]
  | fault r => cases r
  | refused r => simp [thenDo]

/-- Everything a uop step can do: it issues the uop at UPC, executes it and moves on (R207). -/
theorem uopStep_next {s t : State} (h : uopStep s = .next t) :
    ∃ u i v, fetchUop s = some u ∧ decode (.uop u) = .ok i ∧ exec i s = .next v ∧ t = advance v := by
  unfold uopStep at h
  split at h
  · cases h
  · rename_i u hu
    split at h
    · cases h
    · rename_i i hi
      obtain ⟨v, hv, rfl⟩ := andThen_next.mp h
      exact ⟨u, i, v, hu, hi, hv, rfl⟩

/-- Everything an engine step can do: the uops left, no uop, or one (R208, R281). -/
theorem engineStep_cases (s : State) :
    (s.stepsLeft ≤ 1 ∧ engineStep s = uopSteps (uopsLeft s - 1) s) ∨
    (1 < s.stepsLeft ∧ uopsLeft s = 1 ∧ engineStep s = .next s.tick) ∨
    (1 < s.stepsLeft ∧ uopsLeft s ≠ 1 ∧ engineStep s = andThen (uopStep s) State.tick) := by
  unfold engineStep
  by_cases h : s.stepsLeft ≤ 1
  · exact .inl ⟨h, by simp [h]⟩
  · by_cases hu : uopsLeft s = 1
    · exact .inr (.inl ⟨by omega, hu, by simp [h, hu]⟩)
    · exact .inr (.inr ⟨by omega, hu, by simp [h, hu]⟩)

/-- Everything a step can do, by the agent that makes it (R30). -/
theorem step_cases (s : State) :
    (s.turns = [] ∧ s.phase = .idle ∧ step s = .refused .quiescent) ∨
    (s.turns = [] ∧ s.phase ≠ .idle ∧ step s = engineStep s) ∨
    (∃ t rest, s.turns = t :: rest ∧ s.phase ≠ .idle ∧ 0 < t.wait ∧
      step s = engineStep (s.setTurns ({ t with wait := t.wait - 1 } :: rest))) ∨
    (∃ t rest, s.turns = t :: rest ∧ (s.phase = .idle ∨ t.wait = 0) ∧
      step s = hostStep t.act (s.setTurns rest)) := by
  unfold step State.busy
  cases hT : s.turns with
  | nil => by_cases hp : s.phase = .idle <;> simp [hp]
  | cons t rest =>
    by_cases hp : s.phase = .idle
    · simp [hp]
    · by_cases hw : 0 < t.wait
      · refine .inr (.inr (.inl ⟨t, rest, rfl, hp, hw, by simp [hp, hw]⟩))
      · refine .inr (.inr (.inr ⟨t, rest, rfl, .inr (by omega), by simp [hw]⟩))

/-- A write to CMD of a value that names a command runs that command (R101). -/
theorem writeCmd_decoded {v : Word} {i : Instr} {s : State} (h : decode (.cmd v) = .ok i) :
    writeCmd v s = exec i s := by
  simp [writeCmd, h]

/-- A host write other than to CMD changes nothing of the engine but CTRL, KEY and DIN, and those only while IDLE (R76). -/
theorem writeStaged_frame (r : Reg) (v : Word) (s : State) :
    writeStaged r v s =
      { s with
        ksize := (writeStaged r v s).ksize, keylen := (writeStaged r v s).keylen,
        blklen := (writeStaged r v s).blklen, key := (writeStaged r v s).key, din := (writeStaged r v s).din } := by
  cases r <;> simp only [writeStaged] <;> (try split) <;> rfl

theorem writeStaged_busy (r : Reg) (v : Word) (s : State) (h : s.phase ≠ .idle) : writeStaged r v s = s := by
  cases r <;> simp [writeStaged, State.busy, h]

end Sys2Proof.Machine
end

