-- ==== Sys2Proof/Laws/PerInstr.lean ====
section
/-! SUPPORT. Facts about every instruction, one lemma a constructor.  RowMatch: the encoder's word matches the mask and match
of the instruction's row in spec/opcode_table.json (30_encoding.md R101, R108). -/

namespace Sys2Proof.Laws.RowMatch

/-- The row of spec/opcode_table.json: mask and match of a CMD32 word or a UOP12 word. -/
def Matches (e : Encoded) (uop : Bool) (mask value : Nat) : Prop :=
  match e with
  | .cmd v => uop = false ∧ v &&& BitVec.ofNat 32 mask = BitVec.ofNat 32 value
  | .uop u => uop = true ∧ u &&& BitVec.ofNat 12 mask = BitVec.ofNat 12 value

/-- Whether the row has format UOP12, with its mask and its match. -/
def row : Instr → Bool × Nat × Nat
  | .nop => (false, 0xFFFFFFFF, 0x00000000)
  | .keyexp => (false, 0xFFFFFFFF, 0x00000001)
  | .encrypt => (false, 0xFFFFFFFF, 0x00000002)
  | .decrypt => (false, 0xFFFFFFFF, 0x00000003)
  | .uLoad => (true, 0xFFF, 0x000)
  | .uSb => (true, 0xFFF, 0x001)
  | .uSr => (true, 0xFFF, 0x002)
  | .uMc => (true, 0xFFF, 0x003)
  | .uArk _ => (true, 0xC0F, 0x004)
  | .uIsb => (true, 0xFFF, 0x005)
  | .uIsr => (true, 0xFFF, 0x006)
  | .uImc => (true, 0xFFF, 0x007)
  | .uStore => (true, 0xFFF, 0x008)
  | .uKload _ => (true, 0xC0F, 0x009)
  | .uKgen _ => (true, 0xC0F, 0x00A)

/-- The encoded instruction matches its row. -/
def Statement (i : Instr) : Prop := Matches (encode i) (row i).1 (row i).2.1 (row i).2.2

/-- The word of an indexed row matches it whatever the index. -/
theorem indexed_matches :
    ∀ idx : Idx, uopWord idx 0x4#4 &&& 0xC0F#12 = 0x004#12 ∧ uopWord idx 0x9#4 &&& 0xC0F#12 = 0x009#12 ∧
      uopWord idx 0xA#4 &&& 0xC0F#12 = 0x00A#12 := by
  decide

theorem nop : Statement .nop := ⟨rfl, by decide⟩
theorem keyexp : Statement .keyexp := ⟨rfl, by decide⟩
theorem encrypt : Statement .encrypt := ⟨rfl, by decide⟩
theorem decrypt : Statement .decrypt := ⟨rfl, by decide⟩
theorem uLoad : Statement .uLoad := ⟨rfl, by decide⟩
theorem uSb : Statement .uSb := ⟨rfl, by decide⟩
theorem uSr : Statement .uSr := ⟨rfl, by decide⟩
theorem uMc : Statement .uMc := ⟨rfl, by decide⟩
theorem uArk (rnd : Idx) : Statement (.uArk rnd) := ⟨rfl, (indexed_matches rnd).1⟩
theorem uIsb : Statement .uIsb := ⟨rfl, by decide⟩
theorem uIsr : Statement .uIsr := ⟨rfl, by decide⟩
theorem uImc : Statement .uImc := ⟨rfl, by decide⟩
theorem uStore : Statement .uStore := ⟨rfl, by decide⟩
theorem uKload (i : Idx) : Statement (.uKload i) := ⟨rfl, (indexed_matches i).2.1⟩
theorem uKgen (i : Idx) : Statement (.uKgen i) := ⟨rfl, (indexed_matches i).2.2⟩

end Sys2Proof.Laws.RowMatch
end

