-- ==== Sys2Proof/Laws/Steps.lean ====
section
/-! SUPPORT. For a CMD write, a host step, a micro-operation, a step and a run: everything each can do, once. -/

namespace Sys2Proof.Machine

/-- A word transaction at `BASE_ADDR + k` selects what the address map holds at offset k (R71). -/
theorem selectReg_base (s : State) (k : Nat) : selectReg s (s.baseAddr + k) 4 = regAt k := by
  simp [selectReg]

/-- The code of an error is one of 0 .. 5 (R241). -/
theorem code_le_five (c : ErrCode) : c.code.toNat ≤ 5 := by cases c <;> decide

/-- A CMD write by the value written (R101, R102). -/
theorem writeCmd_by_value (v : Word) (s : State) :
    writeCmd v s =
      if v = 0#32 then execNop s
      else if v = 1#32 then execKeyexp s
      else if v = 2#32 then execEncrypt s
      else if v = 3#32 then execDecrypt s
      else illegalCommand v s := by
  by_cases h0 : v = 0#32
  · subst h0; rfl
  by_cases h1 : v = 1#32
  · subst h1; rfl
  by_cases h2 : v = 2#32
  · subst h2; rfl
  by_cases h3 : v = 3#32
  · subst h3; rfl
  simp [writeCmd, decode, decodeCmd, h0, h1, h2, h3]

/-- An accepted request ends with an error code and nothing else, or runs. -/
theorem commandRequest_idle {v : Word} {run : State → Result} {s t : State} (hp : s.phase = .idle)
    (h : commandRequest v run s = .next t) :
    (t.err.toNat ≤ 5 ∧ t = { s with ovr := false, done := true, err := t.err }) ∨
    (validate v s = .ok ∧ run (s.setOvr false) = .next t) := by
  rcases commandRequest_cases v run s with ⟨hb, -⟩ | ⟨-, -, e⟩ | ⟨-, hv, e⟩
  · exact absurd hp hb
  · rw [e] at h; cases h; exact .inl ⟨code_le_five _, rfl⟩
  · rw [e] at h; exact .inr ⟨hv, h⟩

/-- Everything a CMD write can do: overrun, an outcome in DONE and ERR alone, a KEYEXP started, an ENCRYPT or DECRYPT started
(R200 to R206). -/
theorem writeCmd_cases {v : Word} {s t : State} (h : writeCmd v s = .next t) :
    (s.phase ≠ .idle ∧ t = { s with ovr := true }) ∨
    (s.phase = .idle ∧ t.err.toNat ≤ 5 ∧ t = { s with ovr := false, done := true, err := t.err }) ∨
    (s.phase = .idle ∧ ∃ x, variantOf s.ksize = some x ∧ s.keylen.toNat = 4 * x.nk ∧
      t = { s with
        ovr := false, done := false, err := 0#4, keyValid := false, opNk := BitVec.ofNat 4 x.nk
        opNr := BitVec.ofNat 4 x.nr, phase := .kexp, upc := 0#6, stepsLeft := s.lat.steps .kexp x }) ∨
    (s.phase = .idle ∧ s.keyValid = true ∧ s.blklen.toNat = 16 ∧
      ∃ x p, (p = .enc ∨ p = .dec) ∧ variantOf s.kvar = some x ∧
        t = { s with
          ovr := false, done := false, err := 0#4, opNk := BitVec.ofNat 4 x.nk, opNr := BitVec.ofNat 4 x.nr
          phase := p, upc := 0#6, stepsLeft := s.lat.steps p x }) := by
  rw [writeCmd_by_value] at h
  by_cases hp : s.phase = .idle
  · right
    repeat' split at h
    all_goals rcases commandRequest_idle hp h with ⟨he, e⟩ | ⟨hv, hr⟩
    all_goals first
      | exact .inl ⟨hp, he, e⟩
      | (cases hr; exact .inl ⟨hp, code_le_five _, rfl⟩)
      | skip
    · obtain ⟨x, hx, rfl⟩ := start_next.mp hr
      obtain ⟨y, hy, hl⟩ := validateKeyexp_ok.mp hv
      cases Option.some.inj ((show variantOf s.ksize = some x from hx).symm.trans hy)
      exact .inr (.inl ⟨hp, x, hy, hl, rfl⟩)
    · obtain ⟨x, hx, rfl⟩ := start_next.mp hr
      obtain ⟨hk, hb⟩ := validateBlock_ok.mp hv
      exact .inr (.inr ⟨hp, hk, hb, x, .enc, .inl rfl, hx, rfl⟩)
    · obtain ⟨x, hx, rfl⟩ := start_next.mp hr
      obtain ⟨hk, hb⟩ := validateBlock_ok.mp hv
      exact .inr (.inr ⟨hp, hk, hb, x, .dec, .inr rfl, hx, rfl⟩)
  · left
    refine ⟨hp, ?_⟩
    repeat' split at h
    all_goals
      have e := (commandRequest_busy hp).symm.trans h
      cases e; rfl

/-- Everything a step of the host agent can do: the reset input, a CMD write, or else a change of CTRL, KEY, DIN, the
response and the pending actions only, while BUSY of the last two only (R75, R76, R272). -/
theorem hostStep_cases {a : HostAction} {s t : State} (h : hostStep a s = .next t) :
    (a = .reset ∧ t = s.resetInput) ∨
    (∃ addr size v u, a = .write addr size v ∧ selectReg s addr size = some .cmd ∧ writeCmd v s = .next u ∧
      t = u.setResp .okWrite) ∨
    (a ≠ .reset ∧
      t = { s with
        ksize := t.ksize, keylen := t.keylen, blklen := t.blklen, key := t.key, din := t.din, resp := t.resp
        turns := t.turns } ∧
      (s.phase ≠ .idle → t = { s with resp := t.resp, turns := t.turns })) := by
  cases a with
  | reset => cases h; exact .inl ⟨rfl, rfl⟩
  | read addr size => cases h; exact .inr (.inr ⟨by simp, rfl, fun _ => rfl⟩)
  | poll addr m v g =>
    simp only [hostStep] at h
    split at h <;> cases h <;> exact .inr (.inr ⟨by simp, rfl, fun _ => rfl⟩)
  | write addr size v =>
    simp only [hostStep, memWrite] at h
    cases hr : selectReg s addr size with
    | none => rw [hr] at h; cases h; exact .inr (.inr ⟨by simp, rfl, fun _ => rfl⟩)
    | some r =>
      rw [hr] at h
      obtain ⟨u, hu, rfl⟩ := andThen_next.mp h
      by_cases hc : r = .cmd
      · subst hc; exact .inr (.inl ⟨addr, size, v, u, rfl, hr, hu, rfl⟩)
      · have e : u = writeStaged r v s := by cases r <;> first | (cases hu; rfl) | exact absurd rfl hc
        refine .inr (.inr ⟨by simp, ?_, fun hp => ?_⟩)
        · rw [e]; cases r <;> simp only [writeStaged] <;> (try split) <;> rfl
        · rw [e, writeStaged_busy r v s hp]; rfl

/-- The frame of every micro-operation: S, W and DOUT are all it can change (R207, R209, R210, R183, R184). -/
theorem uop_frame {i : Instr} {u : UopWord} {s t : State} (hi : encode i = .uop u) (h : exec i s = .next t) :
    t = { s with sreg := t.sreg, w := t.w, dout := t.dout } := by
  cases i <;> simp only [encode] at hi <;> try (cases hi; done)
  all_goals
    simp only [exec, execULoad, execUSb, execUSr, execUMc, execUArk, execUIsb, execUIsr, execUImc, execUStore,
      execUKload, execUKgen] at h
  all_goals first | (cases h; rfl) | (obtain ⟨-, rfl⟩ := withIdx_next.mp h; rfl)

/-- A uop word decodes to no command. -/
theorem uop_of_decode {u : UopWord} {i : Instr} (h : decode (.uop u) = .ok i) : ∃ x, encode i = .uop x := by
  change decodeUop u = .ok i at h
  unfold decodeUop plainUop at h
  repeat' split at h
  all_goals first | (cases h; exact ⟨_, rfl⟩) | cases h

/-- Everything a uop step can do: the uop's own effect on S, W and DOUT, then the completion after the last uop of the
program and else the next UPC (R207, R211). -/
theorem uopStep_cases {s t : State} (h : uopStep s = .next t) :
    ∃ u i v, fetchUop s = some u ∧ decode (.uop u) = .ok i ∧ exec i s = .next v ∧
      v = { s with sreg := v.sreg, w := v.w, dout := v.dout } ∧
      ((s.upc.toNat + 1 = (prog s.phase s.opNk.toNat s.opNr.toNat).length ∧ t = v.complete) ∨
        (s.upc.toNat + 1 ≠ (prog s.phase s.opNk.toNat s.opNr.toNat).length ∧ t = v.nextUop)) := by
  obtain ⟨u, i, v, hf, hd, he, rfl⟩ := uopStep_next h
  have fr := uop_frame (uop_of_decode hd).choose_spec he
  refine ⟨u, i, v, hf, hd, he, fr, ?_⟩
  have e : (v.phase = s.phase ∧ v.opNk = s.opNk) ∧ v.opNr = s.opNr ∧ v.upc = s.upc := by
    rw [fr]; exact ⟨⟨rfl, rfl⟩, rfl, rfl⟩
  unfold advance
  rw [e.1.1, e.1.2, e.2.1, e.2.2]
  split
  · exact .inl ⟨‹_›, rfl⟩
  · exact .inr ⟨‹_›, rfl⟩

/-- The frame of the engine: beside the data and the control registers of the sequencer it writes KEY_VALID, KVAR and DONE and
nothing else (R207, R211). -/
def EngineFrame (s t : State) : Prop :=
  t = { s with
    sreg := t.sreg, w := t.w, dout := t.dout, keyValid := t.keyValid, kvar := t.kvar, done := t.done
    phase := t.phase, upc := t.upc, stepsLeft := t.stepsLeft }

theorem EngineFrame.trans {s t u : State} (h : EngineFrame s t) (h' : EngineFrame t u) : EngineFrame s u := by
  unfold EngineFrame at h h' ⊢
  rw [h] at h'
  exact h'

theorem uopStep_frame {s t : State} (h : uopStep s = .next t) : EngineFrame s t := by
  obtain ⟨u, i, v, -, -, -, fr, ⟨-, rfl⟩ | ⟨-, rfl⟩⟩ := uopStep_cases h
  · rw [fr]; rfl
  · rw [fr]; rfl

theorem uopSteps_frame {n : Nat} {s t : State} (h : uopSteps n s = .next t) : EngineFrame s t := by
  induction n generalizing s with
  | zero => exact uopStep_frame h
  | succ n ih =>
    obtain ⟨u, hu, ht⟩ := thenDo_next.mp h
    exact (uopStep_frame hu).trans (ih ht)

theorem engineStep_frame {s t : State} (h : engineStep s = .next t) : EngineFrame s t := by
  rcases engineStep_cases s with ⟨-, e⟩ | ⟨-, -, e⟩ | ⟨-, -, e⟩ <;> rw [h] at e
  · exact uopSteps_frame e.symm
  · cases e; rfl
  · obtain ⟨u, hu, rfl⟩ := andThen_next.mp e.symm
    exact (uopStep_frame hu).trans rfl

/-- A step that goes on is an engine step of a busy engine, or a due step of the host (R30). -/
theorem step_split {s t : State} (h : step s = .next t) :
    ByEngine s t ∨
    (∃ n a rest, s.turns = ⟨n, a⟩ :: rest ∧ (s.phase = .idle ∨ n = 0) ∧ hostStep a (s.setTurns rest) = .next t) := by
  rcases step_cases s with ⟨-, -, e⟩ | ⟨hT, hp, e⟩ | ⟨u, rest, hT, hp, hw, e⟩ | ⟨u, rest, hT, hd, e⟩ <;> rw [h] at e
  · cases e
  · refine .inl ⟨⟨hp, fun _ _ hc => by rw [hT] at hc; cases hc⟩, [], ?_⟩
    rw [show s.setTurns [] = s by rw [← hT]; rfl]
    exact e.symm
  · exact .inl ⟨⟨hp, fun _ _ hc => by rw [hT] at hc; cases hc; exact hw⟩, _, e.symm⟩
  · exact .inr ⟨u.wait, u.act, rest, hT, hd, e.symm⟩

/-- Where an engine step is due, a step is an engine step. -/
theorem step_of_due {s : State} (h : EngineDue s) : ∃ ts, step s = engineStep (s.setTurns ts) := by
  rcases step_cases s with ⟨-, hp, -⟩ | ⟨hT, -, e⟩ | ⟨u, rest, -, -, -, e⟩ | ⟨u, rest, hT, hd, -⟩
  · exact absurd hp h.1
  · exact ⟨[], by rw [show s.setTurns [] = s by rw [← hT]; rfl]; exact e⟩
  · exact ⟨_, e⟩
  · have := h.2 u rest hT
    rcases hd with hd | hd
    · exact absurd hd h.1
    · omega

/-- A run of one step and more. -/
theorem run_next {n : Nat} {s t : State} (h : step s = .next t) :
    Host.Core.run Sys2Proof.core (n + 1) s = Host.Core.run Sys2Proof.core n t := by
  have hs : Sys2Proof.core.step s = .next t := h
  simp only [Host.Core.run, hs]

/-- A run that follows a run. -/
theorem run_append {n m : Nat} {s t : State} (h : Host.Core.run Sys2Proof.core n s = .next t) :
    Host.Core.run Sys2Proof.core (n + m) s = Host.Core.run Sys2Proof.core m t := by
  induction n generalizing s with
  | zero => have e := Host.Outcome.next.inj h; subst e; simp
  | succ n ih =>
    rw [show n + 1 + m = (n + m) + 1 by omega]
    cases hs : step s with
    | next u => rw [run_next hs]; rw [run_next hs] at h; exact ih h
    | fault r => cases r
    | refused r =>
      have hr : Sys2Proof.core.step s = .refused r := hs
      simp only [Host.Core.run, hr] at h
      cases h

end Sys2Proof.Machine
end

