-- ==== Sys2Proof/Tests/Slice0.lean ====
section
/-! SUPPORT. Small tests of one step each, expected results from spec/95_test_vectors.md and the rules' own examples, and for
each statement with hypotheses a witness that meets them. -/

namespace Sys2Proof.Tests

open Sys2Proof Sys2Proof.Machine

/-! ## Well-formedness: each check refuses an ill-formed term (30_encoding.md R108) -/

theorem test_wf_ark_round_15_refused : (Instr.uArk 15#6).wellFormed = false := by decide
theorem test_wf_ark_round_14_admitted : (Instr.uArk 14#6).wellFormed = true := by decide
theorem test_wf_kload_word_8_refused : (Instr.uKload 8#6).wellFormed = false := by decide
theorem test_wf_kload_word_7_admitted : (Instr.uKload 7#6).wellFormed = true := by decide
theorem test_wf_kgen_word_3_refused : (Instr.uKgen 3#6).wellFormed = false := by decide
theorem test_wf_kgen_word_60_refused : (Instr.uKgen 60#6).wellFormed = false := by decide
theorem test_wf_kgen_words_4_and_59_admitted :
    (Instr.uKgen 4#6).wellFormed = true ∧ (Instr.uKgen 59#6).wellFormed = true := by decide

/-! ## Decoding: words written out from R101 (the CMD value) and R107, R108 (bits 11:10 = 00, IDX in 9:4, OPC in 3:0) -/

theorem test_decode_nop : decodeTableWord 32 0x00000000 = some .nop := by decide
theorem test_decode_keyexp : decodeTableWord 32 0x00000001 = some .keyexp := by decide
theorem test_decode_encrypt : decodeTableWord 32 0x00000002 = some .encrypt := by decide
theorem test_decode_decrypt : decodeTableWord 32 0x00000003 = some .decrypt := by decide
theorem test_decode_cmd_4_and_0x102_refused :
    decodeTableWord 32 0x00000004 = none ∧ decodeTableWord 32 0x00000102 = none := by decide
theorem test_decode_uload : decodeTableWord 16 0b00_000000_0000 = some .uLoad := by decide
theorem test_decode_usb : decodeTableWord 16 0b00_000000_0001 = some .uSb := by decide
theorem test_decode_usr : decodeTableWord 16 0b00_000000_0010 = some .uSr := by decide
theorem test_decode_umc : decodeTableWord 16 0b00_000000_0011 = some .uMc := by decide
theorem test_decode_uark : decodeTableWord 16 0b00_001010_0100 = some (.uArk 10#6) := by decide
theorem test_decode_uisb : decodeTableWord 16 0b00_000000_0101 = some .uIsb := by decide
theorem test_decode_uisr : decodeTableWord 16 0b00_000000_0110 = some .uIsr := by decide
theorem test_decode_uimc : decodeTableWord 16 0b00_000000_0111 = some .uImc := by decide
theorem test_decode_ustore : decodeTableWord 16 0b00_000000_1000 = some .uStore := by decide
theorem test_decode_ukload : decodeTableWord 16 0b00_000111_1001 = some (.uKload 7#6) := by decide
theorem test_decode_ukgen : decodeTableWord 16 0b00_111011_1010 = some (.uKgen 59#6) := by decide
theorem test_decode_reserved_opcodes_refused :
    decode (.uop 0x00B#12) = .error .reservedOpcode ∧ decode (.uop 0x00F#12) = .error .reservedOpcode := by
  constructor <;> rfl
theorem test_decode_index_on_plain_uop_refused : decode (.uop 0x011#12) = .error .nonzeroIdx := by rfl
theorem test_decode_top_bits_refused : decode (.uop 0x404#12) = .error .nonzeroTop := by rfl

/-! ## States and observations the tests share -/

/-- A busy engine at UPC k of a program, with one engine step to come for each uop left. -/
def busyAt (p : Phase) (nk nr : BitVec 4) (k : BitVec 6) : State :=
  { State.reset with
    phase := p, opNk := nk, opNr := nr, upc := k, stepsLeft := (prog p nk.toNat nr.toNat).length - k.toNat }

/-- A quiescent engine with a key of the variant `code`. -/
def keyed (code : BitVec 2) : State := { State.reset with keyValid := true, kvar := code, done := true }

/-- The host's next action. -/
def next (a : HostAction) (s : State) : State := { s with turns := [⟨0, a⟩] }

def statusOf : Result → Option Word
  | .next t => some (statusWord t)
  | .fault _ => none
  | .refused _ => none

def sOf : Result → Option Block
  | .next t => some (blockOfSreg t.sreg)
  | .fault _ => none
  | .refused _ => none

def doutOf : Result → Option Block
  | .next t => some t.dout
  | .fault _ => none
  | .refused _ => none

def wOf (i : Nat) : Result → Option Word
  | .next t => some (wAt t.w i)
  | .fault _ => none
  | .refused _ => none

def respOf : Result → Option BusResponse
  | .next t => some t.resp
  | .fault _ => none
  | .refused _ => none

def refusalOf : Result → Option Refusal
  | .next _ => none
  | .fault _ => none
  | .refused r => some r

/-- The state after reset with the block b in S. -/
def withS (b : Block) : State := { State.reset with sreg := sregOfBlock b }

/-- The block 000102…0f of 95_test_vectors.md. -/
def ramp : Block := #v[0x00010203#32, 0x04050607#32, 0x08090a0b#32, 0x0c0d0e0f#32]

/-! ## Commands: the rows of 95_test_vectors.md 2.8, one step each, the word placed by withFetchWord -/

theorem test_nop_row_1 : statusOf (step (State.reset.withFetchWord 32 0)) = some 0x004#32 := by decide
theorem test_nop_row_21 :
    statusOf (step ({ keyed 0#2 with ovr := true, err := 1#4 }.withFetchWord 32 0)) = some 0x006#32 := by decide
theorem test_keyexp_row_4 : statusOf (step (State.reset.withFetchWord 32 1)) = some 0x001#32 := by decide
theorem test_keyexp_row_11 :
    statusOf (step ({ keyed 1#2 with ksize := 1#2, keylen := 16#8 }.withFetchWord 32 1)) = some 0x116#32 := by decide
theorem test_encrypt_row_16 : statusOf (step ((keyed 2#2).withFetchWord 32 2)) = some 0x203#32 := by decide
theorem test_encrypt_row_13 :
    statusOf (step ({ keyed 0#2 with blklen := 15#8 }.withFetchWord 32 2)) = some 0x026#32 := by decide
theorem test_decrypt_row_3 :
    statusOf (step ({ State.reset with blklen := 15#8 }.withFetchWord 32 3)) = some 0x044#32 := by decide
theorem test_decrypt_accepted : statusOf (step ((keyed 0#2).withFetchWord 32 3)) = some 0x003#32 := by decide
theorem test_illegal_row_19 : statusOf (step ((keyed 0#2).withFetchWord 32 0x102)) = some 0x056#32 := by decide
theorem test_overrun_discards_the_value :
    statusOf (step ((busyAt .kexp 4#4 10#4 3#6).withFetchWord 32 2)) = some 0x009#32 := by decide

/-! ## Micro-operations: 95_test_vectors.md 2.2 to 2.6, one engine step each -/

theorem test_uload :
    sOf (step ({ State.reset with din := ramp }.withFetchWord 16 0x000)) = some ramp := by decide
theorem test_usb : sOf (step ((withS ramp).withFetchWord 16 0x001)) =
    some #v[0x637c777b#32, 0xf26b6fc5#32, 0x3001672b#32, 0xfed7ab76#32] := by decide
theorem test_usr : sOf (step ((withS ramp).withFetchWord 16 0x002)) =
    some #v[0x00050a0f#32, 0x04090e03#32, 0x080d0207#32, 0x0c01060b#32] := by decide
theorem test_umc_columns :
    sOf (step ((withS #v[0xdb135345#32, 0xf20a225c#32, 0x01000000#32, 0x2d26314c#32]).withFetchWord 16 0x003)) =
      some #v[0x8e4da1bc#32, 0x9fdc589d#32, 0x02010103#32, 0x4d7ebdf8#32] := by decide
theorem test_umc_ramp : sOf (step ((withS ramp).withFetchWord 16 0x003)) =
    some #v[0x02070005#32, 0x06030401#32, 0x0a0f080d#32, 0x0e0b0c09#32] := by decide
/-- Round 1 reads W[4..7], not W[1..4] (conflict C2): 2.5 with the words of round key 1 of 2.6. -/
theorem test_uark_reads_its_round_key :
    sOf (step ({ (withS #v[0xd6aa74fd#32, 0xd2af72fa#32, 0xdaa678f1#32, 0xd6ab76fe#32]) with
      w := (((State.reset.w.set 4 0xd6aa74fd#32).set 5 0xd2af72fa#32).set 6 0xdaa678f1#32).set 7
        0xd6ab76fe#32 }.withFetchWord 16 0x014)) = some (Vector.replicate 4 0#32) := by decide
theorem test_uark_round_0 :
    sOf (step ({ withS ramp with
      w := (((State.reset.w.set 0 0x2b7e1516#32).set 1 0x28aed2a6#32).set 2 0xabf71588#32).set 3
        0x09cf4f3c#32 }.withFetchWord 16 0x004)) =
      some #v[0x2b7f1715#32, 0x2cabd4a1#32, 0xa3fe1f83#32, 0x05c24133#32] := by decide
theorem test_uisb : sOf (step ((withS ramp).withFetchWord 16 0x005)) =
    some #v[0x52096ad5#32, 0x3036a538#32, 0xbf40a39e#32, 0x81f3d7fb#32] := by decide
theorem test_uisr : sOf (step ((withS ramp).withFetchWord 16 0x006)) =
    some #v[0x000d0a07#32, 0x04010e0b#32, 0x0805020f#32, 0x0c090603#32] := by decide
theorem test_uimc_columns :
    sOf (step ((withS #v[0xdb135345#32, 0x8e4da1bc#32, 0x00000001#32, 0x2d26314c#32]).withFetchWord 16 0x007)) =
      some #v[0x32a41d55#32, 0xdb135345#32, 0x090d0b0e#32, 0xa05050d6#32] := by decide
theorem test_ustore : doutOf (step ((withS ramp).withFetchWord 16 0x008)) = some ramp := by decide
theorem test_ukload :
    wOf 7 (step ({ State.reset with key := State.reset.key.set 7 0x1c1d1e1f#32 }.withFetchWord 16 0x079)) =
      some 0x1c1d1e1f#32 := by decide
/-- 2.6: Nk = 8, i = 12, the sub-only branch. -/
theorem test_ukgen_sub_only :
    wOf 12 (step ({ busyAt .kexp 8#4 14#4 0#6 with
      w := (State.reset.w.set 11 0xa572c09c#32).set 4 0x10111213#32 }.withFetchWord 16 0x0CA)) =
      some 0x1651a8cd#32 := by decide
/-- 2.6: Nk = 6, i = 10, the plain branch. -/
theorem test_ukgen_plain_for_nk_6 :
    wOf 10 (step ({ busyAt .kexp 6#4 12#4 0#6 with
      w := (State.reset.w.set 9 0x5847f0fa#32).set 4 0x10111213#32 }.withFetchWord 16 0x0AA)) =
      some 0x4856e2e9#32 := by decide

/-! ## The sequencer and the port (95_test_vectors.md 2.8, 2.9) -/

theorem test_last_uop_of_keyexp_completes :
    statusOf (step (busyAt .kexp 6#4 12#4 51#6)) = some 0x106#32 := by decide
/-- 00_scope.md R11, 70_reset_and_hazards.md R281: a KEYEXP of latency 1 completes in its first engine step. -/
theorem test_latency_1_completes_at_once :
    statusOf (step { busyAt .kexp 6#4 12#4 0#6 with stepsLeft := 1 }) = some 0x106#32 := by decide
/-- R281, R44: with five engine steps of its latency to come, an ENCRYPT at its last uop stays BUSY and keeps DOUT. -/
theorem test_longer_latency_stays_busy :
    statusOf (step { busyAt .enc 4#4 10#4 41#6 with sreg := sregOfBlock ramp, stepsLeft := 5 }) = some 0x001#32 ∧
    doutOf (step { busyAt .enc 4#4 10#4 41#6 with sreg := sregOfBlock ramp, stepsLeft := 5 }) =
      some State.reset.dout := by decide
/-- R281: acceptance loads the latency of the variant in KVAR. -/
theorem test_acceptance_loads_the_latency :
    ((step ({ keyed 2#2 with lat := { State.reset.lat with dec := ⟨3, 5, 7⟩ } }.withFetchWord 32 3)) matches
      .next { stepsLeft := 7, .. }) = true := by decide
theorem test_idle_engine_has_no_step : refusalOf (step State.reset) = some .quiescent := by decide
theorem test_read_of_0x0C_is_a_bus_error : respOf (step (next (.read 0x0C 4) State.reset)) = some .error := by decide
theorem test_misaligned_write_near_cmd :
    statusOf (step (next (.write 0x06 4 2#32) State.reset)) = some 0x000#32 := by decide
theorem test_read_of_key0_is_zero :
    respOf (step (next (.read 0x10 4) { State.reset with key := State.reset.key.set 0 5#32 })) =
      some (.data 0#32) := by decide
theorem test_read_of_ctrl_after_reset : respOf (step (next (.read 0x00 4) State.reset)) =
    some (.data 0x00101000#32) := by decide
/-- 10_state.md R45, R46: byte 5 of the key 000102…0f is 05, byte 14 of the block 000102…0f is 0e and stands in S row 2,
column 3 (R47). -/
theorem test_key_and_block_bytes :
    keyByte (State.reset.key.set 1 0x04050607#32) 5 = 0x05#8 ∧ blockByte ramp 14 = 0x0e#8 ∧
    cell (sregOfBlock ramp) 2 3 = 0x0e#8 := by decide
/-- 30_encoding.md R114: the words of SETCTRL and the register order of SETBLK. -/
theorem test_setctrl_and_setblk :
    setCtrl 0b10#2 32#8 16#8 = [.wr 0x00#8 0x00102002#32] ∧
    setBlk 1#32 2#32 3#32 4#32 =
      [.wr 0x30#8 1#32, .wr 0x34#8 2#32, .wr 0x38#8 3#32, .wr 0x3C#8 4#32] := by decide

/-! ## Witnesses: for every statement with hypotheses, a state and operands that meet all of them together -/

/-- W filled with the schedule of a key. -/
def storeOf (k : KeyRegs) (nk nr : Nat) : KeyStore := Vector.ofFn fun i => (keyExpansion k nk nr).getD i.val 0#32

theorem wAt_storeOf (k : KeyRegs) (nk nr j : Nat) (h : j < 60) :
    wAt (storeOf k nk nr) j = (keyExpansion k nk nr).getD j 0#32 := by
  simp [wAt, storeOf, h]

theorem storeOf_schedule (k : KeyRegs) (v : Variant) : ScheduleTo v.nk (4 * v.nr + 4) (storeOf k v.nk v.nr) := by
  intro i hi hn
  have h4 : 4 ≤ v.nk ∧ v.nr ≤ 14 := by cases v <;> decide
  rw [wAt_storeOf _ _ _ _ (by omega), wAt_storeOf _ _ _ _ (by omega), wAt_storeOf _ _ _ _ (by omega)]
  unfold keyExpansion
  rw [scheduleWords_getD _ _ _ _ (by omega) (by omega), if_neg (by omega)]

/-- A running ENCRYPT or DECRYPT of AES-128 at UPC k, with a complete schedule. -/
def runningAt (p : Phase) (k : BitVec 6) : State :=
  { busyAt p 4#4 10#4 k with keyValid := true, w := storeOf State.reset.key 4 10, din := ramp }

/-- The same with S as the uops below UPC leave it. -/
def runningData (p : Phase) (k : BitVec 6) : State :=
  { runningAt p k with
    sreg := datapathRun ramp (storeOf State.reset.key 4 10) ((progInstrs p 4 10).take k.toNat) }

/-- Every latency of the reference timing is at least 1. -/
theorem latencies_positive (p : Phase) (v : Variant) (hp : p ≠ .idle) : 1 ≤ State.reset.lat.steps p v := by
  cases p <;> cases v <;> first | exact absurd rfl hp | decide

theorem busyAt_latency {p : Phase} (v : Variant) {k : BitVec 6} (hk : k.toNat < (prog p v.nk v.nr).length) :
    LatencyLegal (busyAt p (BitVec.ofNat 4 v.nk) (BitVec.ofNat 4 v.nr) k) := by
  refine ⟨latencies_positive, fun _ => ?_⟩
  change 1 ≤ (prog p (BitVec.ofNat 4 v.nk).toNat (BitVec.ofNat 4 v.nr).toNat).length - k.toNat
  have e : (BitVec.ofNat 4 v.nk).toNat = v.nk ∧ (BitVec.ofNat 4 v.nr).toNat = v.nr := by cases v <;> decide
  rw [e.1, e.2]
  omega

theorem runningData_inv (p : Phase) (k : BitVec 6) (hp : p = .enc ∨ p = .dec)
    (hk : k.toNat < (progInstrs p 4 10).length) : (runningData p k).Inv := by
  have hi : p ≠ .idle := by rcases hp with rfl | rfl <;> decide
  have hx : p ≠ .kexp := by rcases hp with rfl | rfl <;> decide
  have hl : (prog p 4 10).length = (progInstrs p 4 10).length := by rcases hp with rfl | rfl <;> decide
  exact ⟨⟨(by decide : (0#4).toNat ≤ 5), .aes128, rfl⟩,
    busyAt_latency .aes128 (by rw [← hl] at hk; exact hk),
    ⟨fun h => absurd h hi, fun _ => ⟨rfl, rfl, .aes128, ⟨rfl, rfl⟩, hk⟩⟩,
    ⟨fun h => absurd h hx, fun _ => ⟨rfl, .aes128, rfl, rfl, rfl⟩⟩,
    ⟨fun _ => ⟨.aes128, rfl, storeOf_schedule _ .aes128⟩, fun h => absurd h hx⟩⟩

theorem runningData_datapath (p : Phase) (k : BitVec 6) : DatapathInv (runningData p k) := fun _ _ => rfl

/-- A KEYEXP just accepted. -/
theorem kexp_inv : (busyAt .kexp 4#4 10#4 0#6).Inv :=
  ⟨⟨by decide, .aes128, rfl⟩, busyAt_latency .aes128 (by decide),
    ⟨fun h => (by cases h), fun _ => ⟨rfl, rfl, .aes128, ⟨rfl, rfl⟩, by decide⟩⟩,
    ⟨fun _ => rfl, fun h => by rcases h with h | h <;> cases h⟩,
    ⟨fun h => (by cases h), fun _ => ⟨fun i _ h => absurd h (Nat.not_lt_zero i), fun i _ h => absurd h (Nat.not_lt_zero i)⟩⟩⟩

/-- A KEYEXP of AES-128 at its last uop. -/
def kexpLast : State := { busyAt .kexp 4#4 10#4 43#6 with w := storeOf State.reset.key 4 10 }

theorem kexpLast_inv : kexpLast.Inv :=
  ⟨⟨by decide, .aes128, rfl⟩, busyAt_latency .aes128 (by decide),
    ⟨fun h => (by cases h), fun _ => ⟨rfl, rfl, .aes128, ⟨rfl, rfl⟩, by decide⟩⟩,
    ⟨fun _ => rfl, fun h => by rcases h with h | h <;> cases h⟩,
    ⟨fun h => (by cases h), fun _ =>
      ⟨fun i hi hn => storeOf_schedule State.reset.key .aes128 i hi (Nat.lt_of_lt_of_le hn (by decide)), fun i hi _ => by
        have h4 : i < 4 := hi
        change wAt (storeOf State.reset.key 4 10) i = _
        rw [wAt_storeOf _ _ _ _ (by omega)]
        unfold keyExpansion
        rw [scheduleWords_getD _ _ _ _ (by omega) (by omega), if_pos h4]; rfl⟩⟩⟩

theorem witness_DecodeAndEncodeAgree :
    decode (.uop 0x3FA#12) = .ok (.uKgen 63#6) ∧ decode (.cmd 3#32) = .ok .decrypt := ⟨rfl, rfl⟩

theorem witness_ReservedUopWordsRefused :
    0x008#12 ∈ prog .enc Variant.aes256.nk Variant.aes256.nr := by decide

theorem witness_IdxRangeKeptAndRefusedOutside :
    .uArk 14#6 ∈ progInstrs .enc Variant.aes256.nk Variant.aes256.nr ∧
    .uKload 7#6 ∈ progInstrs .kexp Variant.aes256.nk Variant.aes256.nr ∧
    .uKgen 59#6 ∈ progInstrs .kexp Variant.aes256.nk Variant.aes256.nr ∧
    .uKgen 4#6 ∈ progInstrs .kexp Variant.aes128.nk Variant.aes128.nr ∧
    (busyAt .enc 4#4 10#4 0#6).opNr.toNat < (11#6).toNat ∧ (busyAt .kexp 4#4 10#4 0#6).opNk.toNat ≤ (4#6).toNat ∧
    (3#6).toNat < (busyAt .kexp 4#4 10#4 0#6).opNk.toNat ∧
    4 * (busyAt .kexp 4#4 10#4 0#6).opNr.toNat + 3 < (44#6).toNat := by decide

theorem witness_NopClearsTheFlags :
    State.reset.phase = .idle ∧ (busyAt .enc 4#4 10#4 0#6).phase ≠ .idle ∧
    statusWord { keyed 0#2 with ovr := true, err := 1#4 } = 0x0000001E#32 := by decide

theorem witness_KeyexpStarts :
    State.reset.phase = .idle ∧ variantOf State.reset.ksize = some .aes128 ∧
    State.reset.keylen.toNat = 4 * Variant.nk .aes128 ∧ variantOf 0b10#2 = some .aes256 ∧
    (32#8).toNat = 4 * Variant.nk .aes256 := by decide

theorem witness_KeyexpErrors :
    (∃ s : State, s.phase = .idle ∧ s.ksize = 0b11#2) ∧
    (∃ s : State, s.phase = .idle ∧ s.ksize = 0b00#2 ∧ s.keylen.toNat ≠ 16) ∧
    (∃ s : State, s.phase = .idle ∧ s.ksize = 0b01#2 ∧ s.keylen.toNat ≠ 24) ∧
    (∃ s : State, s.phase = .idle ∧ s.ksize = 0b10#2 ∧ s.keylen.toNat ≠ 32) ∧
    ∃ s : State, s.phase = .idle ∧ s.ksize = 0b00#2 ∧ s.keylen = 15#8 :=
  ⟨⟨{ State.reset with ksize := 3#2 }, by decide⟩, ⟨{ State.reset with keylen := 24#8 }, by decide⟩,
    ⟨{ State.reset with ksize := 1#2 }, by decide⟩, ⟨{ State.reset with ksize := 2#2 }, by decide⟩,
    ⟨{ State.reset with keylen := 15#8 }, by decide⟩⟩

theorem witness_EncryptDecryptStart :
    (keyed 2#2).phase = .idle ∧ (keyed 2#2).keyValid = true ∧ (keyed 2#2).blklen = 16#8 ∧
    variantOf (keyed 2#2).kvar = some .aes256 := by decide

theorem witness_EncryptDecryptErrors :
    (State.reset.phase = .idle ∧ State.reset.keyValid = false) ∧
    ∃ s : State, s.phase = .idle ∧ s.keyValid = true ∧ s.blklen = 15#8 ∧ s.blklen.toNat ≠ 16 :=
  ⟨by decide, { keyed 0#2 with blklen := 15#8 }, by decide⟩

theorem witness_OverrunOnlySetsOvr : (busyAt .dec 8#4 14#4 57#6).phase ≠ .idle := by decide

theorem witness_IllegalCommandFails :
    4 ≤ (4#32).toNat ∧ 4 ≤ (0xFFFFFFFF#32).toNat ∧ State.reset.phase = .idle ∧
    (busyAt .enc 4#4 10#4 0#6).phase ≠ .idle := by decide

theorem witness_FirstFailingCheckIsReported : State.reset.phase = .idle ∧ StatusLegal State.reset :=
  ⟨rfl, by decide, .aes128, rfl⟩

theorem witness_CommandErrorsArePrecise :
    ∃ t, State.reset.phase = .idle ∧ writeCmd 4#32 State.reset = .next t ∧ t.err ≠ 0#4 :=
  ⟨_, rfl, rfl, by decide⟩

theorem witness_LoadCopiesDin :
    ∃ s : State, s.din = #v[0x00112233#32, 0x44556677#32, 0x8899aabb#32, 0xccddeeff#32] :=
  ⟨{ State.reset with din := #v[0x00112233#32, 0x44556677#32, 0x8899aabb#32, 0xccddeeff#32] }, rfl⟩

theorem witness_ShiftRowsUop :
    (0 : Fin 4).val = ((3 : Fin 4).val + (1 : Fin 4).val) % 4 ∧
    ∃ x : SReg, ∀ r c d, cell x r c = cell x r d :=
  ⟨by decide, sregOf fun _ _ => 0x5a#8, fun r c d => by rw [cell_sregOf, cell_sregOf]⟩

theorem witness_InvShiftRowsUop : (1 : Fin 4).val = ((0 : Fin 4).val + 4 - (3 : Fin 4).val) % 4 := by decide

theorem witness_MixColumnsUop_and_InvMixColumnsUop : ∃ x : SReg, ∀ r, cell x r 0 = cell x 0 0 :=
  ⟨sregOf fun _ _ => 0xc6#8, fun r => by rw [cell_sregOf, cell_sregOf]⟩

theorem witness_AddRoundKeyUop :
    ((10#6).toNat ≤ (busyAt .enc 4#4 10#4 41#6).opNr.toNat ∧ (10#6).toNat ≤ 14) ∧
    (∀ c : Fin 4, wAt State.reset.w (4 * 14 + c.val) = 0#32) ∧
    (∀ q c : Fin 4, cell State.reset.sreg q c = byteOf (wAt State.reset.w (4 * 0 + c.val)) q) ∧
    ∃ w : KeyStore, wAt w 0 = 0x2b7e1516#32 ∧ wAt w 1 = 0x28aed2a6#32 ∧ wAt w 2 = 0xabf71588#32 ∧
      wAt w 3 = 0x09cf4f3c#32 :=
  ⟨by decide, by decide, by decide,
    (((State.reset.w.set 0 0x2b7e1516#32).set 1 0x28aed2a6#32).set 2 0xabf71588#32).set 3 0x09cf4f3c#32, by decide⟩

theorem witness_KeyLoadUop :
    ((7#6).toNat < (busyAt .kexp 8#4 14#4 7#6).opNk.toNat ∧ (7#6).toNat ≤ 7) ∧
    ∃ s : State, s.opNk = 4#4 ∧ keyAt s.key 0 = 0x2b7e1516#32 :=
  ⟨by decide, { busyAt .kexp 4#4 10#4 0#6 with key := State.reset.key.set 0 0x2b7e1516#32 }, by decide⟩

theorem witness_KeyGenerateUop :
    (4 ≤ (busyAt .kexp 8#4 14#4 59#6).opNk.toNat ∧ (busyAt .kexp 8#4 14#4 59#6).opNk.toNat ≤ (59#6).toNat ∧
      (59#6).toNat ≤ 4 * (busyAt .kexp 8#4 14#4 59#6).opNr.toNat + 3 ∧ (59#6).toNat ≤ 59) ∧
    ∃ s : State, s.opNk = 4#4 ∧ s.opNr = 10#4 ∧ wAt s.w 0 = 0x2b7e1516#32 ∧ wAt s.w 3 = 0x09cf4f3c#32 :=
  ⟨by decide, { busyAt .kexp 4#4 10#4 4#6 with
    w := (State.reset.w.set 0 0x2b7e1516#32).set 3 0x09cf4f3c#32 }, by decide⟩

theorem witness_KeyexpMakesTheSchedule :
    (busyAt .kexp 8#4 14#4 0#6).phase = .kexp ∧ (busyAt .kexp 8#4 14#4 0#6).upc = 0#6 ∧
    Latched (busyAt .kexp 8#4 14#4 0#6) .aes256 ∧ (busyAt .kexp 8#4 14#4 0#6).turns = [] ∧
    1 ≤ (busyAt .kexp 8#4 14#4 0#6).stepsLeft :=
  ⟨rfl, rfl, ⟨rfl, rfl⟩, rfl, by decide⟩

theorem witness_KeyexpMakesTheSchedule_completion :
    ∃ t, kexpLast.Inv ∧ kexpLast.phase = .kexp ∧ Latched kexpLast .aes128 ∧ engineStep kexpLast = .next t ∧
      t.phase = .idle :=
  ⟨_, kexpLast_inv, rfl, ⟨rfl, rfl⟩, rfl, rfl⟩

/-- Two KEY banks that differ in a word AES-128 does not read. -/
theorem witness_ScheduleReadsOnlyNkKeyWords :
    ∀ i, i < Variant.nk .aes128 → keyAt State.reset.key i = keyAt (State.reset.key.set 4 1#32) i := by decide

theorem witness_EngineStepRunsTheIssuedUop :
    ((busyAt .enc 4#4 10#4 41#6).phase ≠ .idle ∧ fetchUop (busyAt .enc 4#4 10#4 41#6) = some 0x008#12 ∧
      (busyAt .enc 4#4 10#4 41#6).turns = [] ∧
      (busyAt .enc 4#4 10#4 41#6).upc.toNat + 1 = (prog .enc 4 10).length ∧
      uopsLeft (busyAt .enc 4#4 10#4 41#6) = (busyAt .enc 4#4 10#4 41#6).stepsLeft ∧
      (busyAt .enc 4#4 10#4 41#6).stepsLeft ≤ 1 ∧ 1 < (busyAt .enc 4#4 10#4 40#6).stepsLeft ∧
      uopsLeft (busyAt .enc 4#4 10#4 41#6) = 1 ∧ uopsLeft (busyAt .enc 4#4 10#4 40#6) ≠ 1) ∧
    decode (.uop 0x008#12) = .ok .uStore ∧
    { busyAt .enc 4#4 10#4 41#6 with turns := [⟨1, .reset⟩] }.turns = ⟨0 + 1, .reset⟩ :: [] ∧
    (busyAt .enc 4#4 10#4 40#6).upc.toNat + 1 ≠ (prog .enc 4 10).length ∧
    State.reset.phase = .idle ∧ State.reset.turns = [] :=
  ⟨by decide, rfl, rfl, by decide, rfl, rfl⟩

/-- Two uops in one engine step. -/
theorem witness_EngineStepRunsTheIssuedUop_fused :
    ∃ t, uopSteps (0 + 1) (busyAt .enc 4#4 10#4 40#6) = .next t ∧ t.phase = .idle := ⟨_, rfl, rfl⟩

theorem witness_CommandWriteRunsTheCommand :
    ∃ s : State, s.turns = ⟨3, .write (s.baseAddr + 0x04) 4 1#32⟩ :: [] ∧ (s.phase = .idle ∨ 3 = 0) ∧
      decode (.cmd 1#32) = .ok .keyexp :=
  ⟨{ State.reset with turns := [⟨3, .write 4 4 1#32⟩] }, rfl, .inl rfl, rfl⟩

theorem witness_MicroProgramsAreTheRoundOrders :
    43 < 4 * (Variant.nr .aes128 + 1) ∧ 1 ≤ 13 ∧ 13 < Variant.nr .aes256 := by decide

theorem witness_CompletionStep_keyexp :
    ∃ t, (busyAt .kexp 4#4 10#4 43#6).phase = .kexp ∧ fetchUop (busyAt .kexp 4#4 10#4 43#6) = some 0x2BA#12 ∧
      decode (.uop 0x2BA#12) = .ok (.uKgen 43#6) ∧ exec (.uKgen 43#6) (busyAt .kexp 4#4 10#4 43#6) = .next t ∧
      (busyAt .kexp 4#4 10#4 43#6).upc.toNat + 1 = (prog .kexp 4 10).length :=
  ⟨_, rfl, by decide, rfl, rfl, by decide⟩

theorem witness_CompletionStep_encrypt :
    ∃ t, (busyAt .enc 4#4 10#4 41#6).phase ≠ .kexp ∧ fetchUop (busyAt .enc 4#4 10#4 41#6) = some 0x008#12 ∧
      decode (.uop 0x008#12) = .ok .uStore ∧ exec .uStore (busyAt .enc 4#4 10#4 41#6) = .next t ∧
      (busyAt .enc 4#4 10#4 41#6).upc.toNat + 1 = (prog .enc 4 10).length ∧ (busyAt .enc 4#4 10#4 41#6).stepsLeft ≤ 1 :=
  ⟨_, by decide, by decide, rfl, rfl, by decide, by decide⟩

theorem witness_EncryptAndDecryptAreTheCiphers :
    (busyAt .enc 6#4 12#4 0#6).upc = 0#6 ∧ Latched (busyAt .enc 6#4 12#4 0#6) .aes192 ∧
    (busyAt .enc 6#4 12#4 0#6).turns = [] ∧ (busyAt .enc 6#4 12#4 0#6).phase = .enc ∧
    1 ≤ (busyAt .enc 6#4 12#4 0#6).stepsLeft ∧ Latched (busyAt .dec 6#4 12#4 0#6) .aes192 ∧
    (busyAt .dec 6#4 12#4 0#6).phase = .dec :=
  ⟨rfl, ⟨rfl, rfl⟩, rfl, rfl, by decide, ⟨rfl, rfl⟩, rfl⟩

theorem witness_StepKeepsDatapathInv :
    ∃ t, (runningData .enc 0#6).Inv ∧ DatapathInv (runningData .enc 0#6) ∧ step (runningData .enc 0#6) = .next t ∧
      t.phase = .enc ∧ 0 < t.upc.toNat :=
  ⟨_, runningData_inv _ _ (.inl rfl) (by decide), runningData_datapath _ _, rfl, rfl, by decide⟩

theorem witness_CompletionDeliversTheCiphers_encrypt :
    ∃ t, (runningData .enc 41#6).Inv ∧ DatapathInv (runningData .enc 41#6) ∧
      engineStep (runningData .enc 41#6) = .next t ∧ t.phase = .idle ∧ (runningData .enc 41#6).phase = .enc :=
  ⟨_, runningData_inv _ _ (.inl rfl) (by decide), runningData_datapath _ _, rfl, rfl, rfl⟩

theorem witness_CompletionDeliversTheCiphers_decrypt :
    ∃ t, (runningData .dec 41#6).Inv ∧ DatapathInv (runningData .dec 41#6) ∧
      engineStep (runningData .dec 41#6) = .next t ∧ t.phase = .idle ∧ (runningData .dec 41#6).phase = .dec :=
  ⟨_, runningData_inv _ _ (.inr rfl) (by decide), runningData_datapath _ _, rfl, rfl, rfl⟩

theorem witness_AddressMap : selectReg State.reset 0x4C 4 = some (.dout 3) := by decide

theorem witness_BusErrorChangesNothing :
    (3 ≠ 4) ∧ 0xFF < { State.reset with basePage := 1 }.baseAddr ∧ (0x31 - State.reset.baseAddr) % 4 ≠ 0 ∧
    0x0C - State.reset.baseAddr = 0x0C ∧ 0x50 ≤ 0x50 - State.reset.baseAddr := by decide

theorem witness_WritesStageTheOperands :
    State.reset.phase = .idle ∧ (busyAt .kexp 4#4 10#4 0#6).phase ≠ .idle := by decide

theorem witness_WriteThenReadBack :
    ∃ t u v, State.reset.phase = .idle ∧
      hostStep (.write (State.reset.baseAddr + 0x00) 4 0xFFFFFFFF#32) State.reset = .next t ∧
      hostStep (.write (State.reset.baseAddr + 0x30 + 4 * (3 : Fin 4).val) 4 1#32) State.reset = .next u ∧
      selectReg State.reset 0x10 4 ≠ some .cmd ∧ memWrite 0x10 4 7#32 State.reset = .next v :=
  ⟨_, _, _, rfl, rfl, rfl, by decide, rfl⟩

theorem witness_PollReadsUntilItMatches :
    (memRead (busyAt .enc 4#4 10#4 0#6) 0x08 4 = .data 1#32 ∧ 1#32 &&& 1#32 ≠ 0#32) ∧
    (memRead State.reset 0x08 4 = .data 0#32 ∧ 0#32 &&& 1#32 = 0#32) ∧ memRead State.reset 0x0C 4 = .error := by decide

theorem witness_StepKeepsInv :
    ∃ t, (busyAt .kexp 4#4 10#4 0#6).Inv ∧ step (busyAt .kexp 4#4 10#4 0#6) = .next t ∧ t.upc = 1#6 :=
  ⟨_, kexp_inv, rfl, rfl⟩

theorem witness_StepKeepsInv_last_uop :
    ∃ t, (runningData .dec 41#6).Inv ∧ step (runningData .dec 41#6) = .next t ∧ t.phase = .idle :=
  ⟨_, runningData_inv _ _ (.inr rfl) (by decide), rfl, rfl⟩

theorem witness_NoFaultNoHang :
    (busyAt .kexp 4#4 10#4 0#6).Inv ∧
    ((busyAt .kexp 4#4 10#4 0#6).phase ≠ .idle ∨ (busyAt .kexp 4#4 10#4 0#6).turns ≠ []) :=
  ⟨kexp_inv, by decide⟩

theorem witness_AcceptedCommandsComplete :
    ∃ t, (runningData .enc 0#6).Inv ∧ (runningData .enc 0#6).phase ≠ .idle ∧ (runningData .enc 0#6).turns = [] ∧
      0 < (runningData .enc 0#6).stepsLeft ∧ step (runningData .enc 0#6) = .next t ∧ t.phase = .enc :=
  ⟨_, runningData_inv _ _ (.inl rfl) (by decide), (fun h => by cases h), rfl, by decide, rfl, rfl⟩

/-- A POLL of BUSY and a late write are pending while an ENCRYPT of latency 3 runs, and the POLL is due. -/
theorem witness_AcceptedCommandsComplete_pending :
    ∃ s t : State, s.Inv ∧ s.phase ≠ .idle ∧ s.turns ≠ [] ∧ (∀ u ∈ s.turns, u.act ≠ .reset) ∧ step s = .next t ∧
      t.stepsLeft = 3 :=
  ⟨{ runningData .enc 0#6 with turns := [⟨0, .poll 0x08 1#32 0#32 0⟩, ⟨9, .write 0x04 4 0#32⟩], stepsLeft := 3 }, _,
    ⟨(runningData_inv .enc 0#6 (.inl rfl) (by decide)).1, ⟨latencies_positive, fun _ => by decide⟩,
      (runningData_inv .enc 0#6 (.inl rfl) (by decide)).2.2⟩,
    (fun h => by cases h), (fun h => by cases h), by decide, rfl, rfl⟩

/-- The completion step, and the reset input while BUSY. -/
theorem witness_AcceptedCommandsComplete_last_and_reset :
    ∃ t u, (runningData .enc 41#6).Inv ∧ (runningData .enc 41#6).stepsLeft = 1 ∧
      step (runningData .enc 41#6) = .next t ∧ t.phase = .idle ∧
      step (next .reset (runningData .enc 41#6)) = .next u ∧ ByReset (next .reset (runningData .enc 41#6)) u :=
  ⟨_, _, runningData_inv _ _ (.inl rfl) (by decide), by decide, rfl, rfl, rfl, 0, [], rfl, .inr rfl, rfl⟩

/-- The rising edge of KEY_VALID, at the last uop of a KEYEXP. -/
theorem witness_KeyValidAndKvarWriters_rise :
    ∃ t, step (busyAt .kexp 8#4 14#4 59#6) = .next t ∧ t.keyValid = true ∧ t.kvar = 0b10#2 :=
  ⟨_, rfl, rfl, rfl⟩

/-- The reset input clears KEY_VALID and KVAR. -/
theorem witness_KeyValidAndKvarWriters_reset :
    ∃ t, step (next .reset (keyed 2#2)) = .next t ∧ (keyed 2#2).keyValid = true ∧ t.keyValid = false ∧ t.kvar = 0#2 :=
  ⟨_, rfl, rfl, rfl, rfl⟩

/-- The falling edge of KEY_VALID, at the acceptance of a KEYEXP. -/
theorem witness_KeyValidAndKvarWriters_fall :
    ∃ t, step ((keyed 0#2).withFetchWord 32 1) = .next t ∧ (keyed 0#2).keyValid = true ∧ t.keyValid = false :=
  ⟨_, rfl, rfl, rfl⟩

theorem witness_ScheduleIsImmutable :
    ∃ t, step { busyAt .kexp 4#4 10#4 0#6 with key := State.reset.key.set 0 1#32 } = .next t ∧ t.w ≠ State.reset.w :=
  ⟨_, rfl, by decide⟩

theorem witness_ScheduleIsImmutable_uop :
    ∃ t, exec (.uKload 0#6) { busyAt .kexp 4#4 10#4 0#6 with key := State.reset.key.set 0 1#32 } = .next t ∧
      t.w ≠ State.reset.w :=
  ⟨_, rfl, by decide⟩

theorem witness_DoutChangesOnlyAtCompletion :
    ∃ t, step { busyAt .enc 4#4 10#4 41#6 with sreg := sregOfBlock ramp } = .next t ∧ t.dout ≠ State.reset.dout :=
  ⟨_, rfl, by decide⟩

theorem witness_DoutChangesOnlyAtCompletion_reset :
    ∃ t, step (next .reset { State.reset with dout := ramp }) = .next t ∧ t.dout ≠ ramp :=
  ⟨_, rfl, by decide⟩

theorem witness_OperandsFrozenWhileBusy :
    ∃ t, (busyAt .kexp 4#4 10#4 0#6).phase ≠ .idle ∧
      step (next (.write 0x10 4 1#32) (busyAt .kexp 4#4 10#4 0#6)) = .next t ∧ t.key = State.reset.key :=
  ⟨_, by decide, rfl, rfl⟩

theorem witness_TimingIndependentOfData :
    SameControl (runningAt .enc 7#6) { runningAt .enc 7#6 with din := State.reset.din, key := State.reset.key.set 0 1#32 } ∧
    noDataPoll State.reset (.poll 0x08 1#32 0#32 0) = true ∧
    ∀ u rest, (runningAt .enc 7#6).turns = u :: rest → noDataPoll (runningAt .enc 7#6) u.act = true :=
  ⟨⟨rfl, rfl, rfl, rfl, rfl, rfl, rfl, rfl, rfl, rfl, rfl, rfl, rfl, rfl, rfl, rfl, rfl⟩, by decide,
    fun _ _ h => by cases h⟩

theorem witness_FieldLaws : 0x53#8 ≠ 0x00#8 ∧ galoisMul 0x53#8 0xCA#8 = 0x01#8 := by decide

theorem witness_GinvIsTheInverse : 0xFF#8 ≠ 0x00#8 ∧ galoisMul 0xFF#8 0x1C#8 = 0x01#8 := by decide

end Sys2Proof.Tests
end

section
/-! SUPPORT. A word read and a word write of a mapped register, by what the address map holds (R75, R76). -/

namespace Sys2Proof.Machine

/-- A word read at `BASE_ADDR + k` answers with the value of the register at offset k and changes nothing else (R75). -/
theorem hostStep_read_mapped {k : Nat} {r : Reg} (s : State) (h : regAt k = some r) :
    hostStep (.read (s.baseAddr + k) 4) s = .next (s.setResp (.data (readReg r s))) := by
  simp only [hostStep, memRead, selectReg_base, h]

/-- A word write at `BASE_ADDR + k` has the effect of a write of the register at offset k and is answered OK (R76). -/
theorem hostStep_write_mapped {k : Nat} {r : Reg} (s : State) (v : Word) (h : regAt k = some r) :
    hostStep (.write (s.baseAddr + k) 4 v) s = andThen (writeReg r v s) (State.setResp · .okWrite) := by
  simp only [hostStep, memWrite, selectReg_base, h]

/-! The bits of STATUS (10_state.md R35, R41). -/

/-- A concatenation as a number: the upper part counts in units of `2 ^ n`. -/
theorem toNat_append_eq_add {m n : Nat} (x : BitVec m) (y : BitVec n) :
    (x ++ y).toNat = 2 ^ n * x.toNat + y.toNat := by
  rw [BitVec.toNat_append, ← Nat.shiftLeft_add_eq_or_of_lt y.isLt, Nat.shiftLeft_eq, Nat.mul_comm]

/-- BUSY as a number is 0 exactly in PHASE IDLE (R35). -/
theorem busy_toNat (s : State) : s.busy.toNat = if s.phase = .idle then 0 else 1 := by
  by_cases h : s.phase = .idle <;> simp [State.busy, h]

theorem statusWord_toNat (s : State) :
    (statusWord s).toNat =
      256 * s.kvar.toNat + 16 * s.err.toNat + 8 * s.ovr.toNat + 4 * s.done.toNat + 2 * s.keyValid.toNat +
        s.busy.toNat := by
  simp only [statusWord, toNat_append_eq_add, BitVec.toNat_ofBool, BitVec.toNat_ofNat]
  omega

/-- Bit 0 of STATUS is BUSY (R41). -/
theorem statusWord_getLsbD_zero (s : State) : (statusWord s).getLsbD 0 = s.busy := by
  rw [statusWord, BitVec.getLsbD_append]
  simp

/-- Settles O42: STATUS as a sum of its shifted fields, and the port's two transactions on the register at offset 0x08. -/
theorem statusBits : Obligations.StatusBits := by
  intro s
  refine ⟨?_, ?_, ?_, fun v => ?_⟩
  · rw [statusWord_toNat, busy_toNat]
  · rw [statusWord_getLsbD_zero, State.busy, decide_eq_true_iff]
  · exact hostStep_read_mapped s (r := .status) rfl
  · exact hostStep_write_mapped s v (r := .status) rfl

end Sys2Proof.Machine
end

section
/-! SUPPORT. A transaction that selects no register: where the address map is empty, and the bus error it gets (R71 to R73,
R247). -/

namespace Sys2Proof.Machine

/-- The address map holds a register at that register's own offset only (R71). -/
theorem eq_offset_of_regAt {off : Nat} {r : Reg} (h : regAt off = some r) : off = r.offset.toNat := by
  unfold regAt at h
  split at h <;> cases h <;> rfl

/-- Every register's offset is a multiple of 4 below 0x50, and none is 0x0C (R71, R73). -/
theorem offset_aligned_mapped (r : Reg) :
    r.offset.toNat % 4 = 0 ∧ r.offset.toNat ≠ 0x0C ∧ r.offset.toNat < 0x50 := by
  cases r with
  | ctrl | cmd | status => decide
  | key k | din k | dout k => revert k; decide

/-- The address map is empty at a misaligned offset, at 0x0C and from 0x50 on (R71, R73). -/
theorem regAt_eq_none {off : Nat} (h : off % 4 ≠ 0 ∨ off = 0x0C ∨ 0x50 ≤ off) : regAt off = none := by
  refine Option.eq_none_iff_forall_ne_some.mpr fun r hr => ?_
  obtain ⟨haligned, hgap, hwindow⟩ := offset_aligned_mapped r
  rw [← eq_offset_of_regAt hr] at haligned hgap hwindow
  omega

/-- A transaction of a wrong size, below the window or at an offset without a register selects nothing (R71 to R73, R12). -/
theorem selectReg_eq_none {s : State} {addr size : Nat}
    (h : size ≠ 4 ∨ addr < s.baseAddr ∨ (addr - s.baseAddr) % 4 ≠ 0 ∨ addr - s.baseAddr = 0x0C ∨
      0x50 ≤ addr - s.baseAddr) : selectReg s addr size = none := by
  unfold selectReg
  obtain hsize | hbelow | hoff := h
  · rw [if_pos hsize]
  · rw [if_pos hbelow, ite_self]
  · rw [regAt_eq_none hoff, ite_self, ite_self]

/-- A read that selects no register gets the ERROR response and changes nothing else (R247). -/
theorem hostStep_read_unselected {s : State} {addr size : Nat} (h : selectReg s addr size = none) :
    hostStep (.read addr size) s = .next (s.setResp .error) := by
  simp only [hostStep, memRead, h]

/-- A write that selects no register gets the ERROR response and changes nothing else (R247). -/
theorem hostStep_write_unselected {s : State} {addr size : Nat} (v : Word) (h : selectReg s addr size = none) :
    hostStep (.write addr size v) s = .next (s.setResp .error) := by
  simp only [hostStep, memWrite, h]

/-- Settles O40: each of the five conditions leaves the transaction without a register, and that is a bus error. -/
theorem busErrorChangesNothing : Obligations.BusErrorChangesNothing := by
  intro s addr size v h
  have hnone : selectReg s addr size = none := selectReg_eq_none h
  exact ⟨hostStep_read_unselected hnone, hostStep_write_unselected v hnone⟩

end Sys2Proof.Machine
end

section
/-! SUPPORT. The CMD decoder by value (30_encoding.md R101, R102), and what a CMD write of a value that names no command does
(60_exceptions.md R246). -/

namespace Sys2Proof.Machine

/-- A CMD word is one of the four command values, or 4 and above. -/
theorem cmdWord_cases (v : Word) : v = 0#32 ∨ v = 1#32 ∨ v = 2#32 ∨ v = 3#32 ∨ 4 ≤ v.toNat := by
  bv_omega

/-- A CMD word of 4 and above is no command (R102). -/
theorem decode_cmd_illegal {v : Word} (h : 4 ≤ v.toNat) : decode (.cmd v) = .error .illegalCommand := by
  have h0 : v ≠ 0#32 := by bv_omega
  have h1 : v ≠ 1#32 := by bv_omega
  have h2 : v ≠ 2#32 := by bv_omega
  have h3 : v ≠ 3#32 := by bv_omega
  simp only [decode, decodeCmd, h0, h1, h2, h3, if_false]

/-- Settles O4: by the value of the word, and a value of 4 and above does not decode. -/
theorem fourCommandWords : Obligations.FourCommandWords := by
  intro v i
  constructor
  · intro h
    obtain rfl | rfl | rfl | rfl | hv := cmdWord_cases v
    · cases h; exact .inl ⟨rfl, rfl⟩
    · cases h; exact .inr (.inl ⟨rfl, rfl⟩)
    · cases h; exact .inr (.inr (.inl ⟨rfl, rfl⟩))
    · cases h; exact .inr (.inr (.inr ⟨rfl, rfl⟩))
    · rw [decode_cmd_illegal hv] at h
      cases h
  · rintro (⟨rfl, rfl⟩ | ⟨rfl, rfl⟩ | ⟨rfl, rfl⟩ | ⟨rfl, rfl⟩) <;> rfl

/-- A CMD write of 4 and above is the illegal command (R102). -/
theorem writeCmd_illegal {v : Word} (s : State) (h : 4 ≤ v.toNat) : writeCmd v s = illegalCommand v s := by
  simp only [writeCmd, decode_cmd_illegal h]

/-- Settles O13: the checks report ILLEGAL_CMD while IDLE, and while BUSY they are not made. -/
theorem illegalCommandFails : Obligations.IllegalCommandFails := by
  intro s v h
  rw [writeCmd_illegal s h]
  refine ⟨fun hidle => ?_, commandRequest_busy⟩
  have hcheck : validate v s = .illegalCmd := validate_illegal h
  rw [illegalCommand, commandRequest_failed hidle (by simp [hcheck]), hcheck]
  rfl

end Sys2Proof.Machine
end

section
/-! SUPPORT. The uop decoder by its fields (30_encoding.md R107, R108, R110), and that it reads back what the encoder writes. -/

namespace Sys2Proof

/-- A row without an index refuses exactly the words with one (R108, R110). -/
theorem plainUop_refused {idx : Idx} {i : Instr} : (∃ e, plainUop idx i = .error e) ↔ idx ≠ 0#6 := by
  by_cases h : idx = 0#6 <;> simp [plainUop, h]

/-- Everything the uop decoder can do: refuse bits 11:10, take an indexed row with any IDX, take a plain row, refuse a
reserved OPC (R108, R110). -/
theorem decode_uop_cases (u : UopWord) :
    (uopTop u ≠ 0#2 ∧ decode (.uop u) = .error .nonzeroTop) ∨
    (uopTop u = 0#2 ∧ (uopOpc u = 0x4#4 ∨ uopOpc u = 0x9#4 ∨ uopOpc u = 0xA#4) ∧ ∃ i, decode (.uop u) = .ok i) ∨
    (uopTop u = 0#2 ∧ (uopOpc u).toNat < 0xB ∧ uopOpc u ≠ 0x4#4 ∧ uopOpc u ≠ 0x9#4 ∧ uopOpc u ≠ 0xA#4 ∧
      ∃ i, decode (.uop u) = plainUop (uopIdx u) i) ∨
    (uopTop u = 0#2 ∧ 0xB ≤ (uopOpc u).toNat ∧ decode (.uop u) = .error .reservedOpcode) := by
  simp only [decode, decodeUop]
  by_cases htop : uopTop u = 0#2
  · right
    rw [if_neg (not_not.mpr htop)]
    -- the arms for OPC 4, 9 and 0xA take an index, the last arm is the reserved codes, the others are the plain rows
    split
    case h_5 h | h_10 h | h_11 h => exact .inl ⟨htop, by bv_omega, _, rfl⟩
    case h_12 => exact .inr (.inr ⟨htop, by grind, rfl⟩)
    all_goals exact .inr (.inl ⟨htop, by omega, by bv_omega, by bv_omega, by bv_omega, _, rfl⟩)
  · exact .inl ⟨htop, if_pos htop⟩

/-- The words the uop decoder refuses (R110). -/
theorem decode_uop_refused (u : UopWord) :
    (∃ e, decode (.uop u) = .error e) ↔
      uopTop u ≠ 0#2 ∨ 0xB ≤ (uopOpc u).toNat ∨
        (uopIdx u ≠ 0#6 ∧ uopOpc u ≠ 0x4#4 ∧ uopOpc u ≠ 0x9#4 ∧ uopOpc u ≠ 0xA#4) := by
  obtain ⟨htop, hd⟩ | ⟨htop, hopc, i, hd⟩ | ⟨htop, hlt, h4, h9, hA, i, hd⟩ | ⟨htop, hge, hd⟩ := decode_uop_cases u
  · simp [hd, htop]
  · exact iff_of_false (by simp [hd]) (by bv_omega)
  · rw [hd, plainUop_refused]
    simp [htop, hlt.not_ge, h4, h9, hA]
  · simp [hd, hge]

@[simp] theorem uopTop_uopWord (idx : Idx) (opc : BitVec 4) : uopTop (uopWord idx opc) = 0#2 :=
  (BitVec.extractLsb'_append_eq_of_le (by decide)).trans BitVec.extractLsb'_append_eq_left

@[simp] theorem uopIdx_uopWord (idx : Idx) (opc : BitVec 4) : uopIdx (uopWord idx opc) = idx :=
  (BitVec.extractLsb'_append_eq_of_le le_rfl).trans BitVec.extractLsb'_append_eq_right

@[simp] theorem uopOpc_uopWord (idx : Idx) (opc : BitVec 4) : uopOpc (uopWord idx opc) = opc :=
  BitVec.extractLsb'_append_eq_right

/-- The decoder reads back every encoded instruction, whatever its index (R101, R108). -/
theorem decode_encode (i : Instr) : decode (encode i) = .ok i := by
  cases i with
  | uArk idx | uKload idx | uKgen idx => simp [encode, decode, decodeUop]
  | _ => rfl

end Sys2Proof
end

section
/-! SUPPORT. The words and the indices of the micro-programs (43_cipher_driver.md R208, 30_encoding.md R109). -/

namespace Sys2Proof.Machine

/-- Every word of a micro-program decodes: it is the encoding of one of its operations (R110). -/
theorem decode_of_mem_prog {p : Phase} {nk nr : Nat} {u : UopWord} (h : u ∈ prog p nk nr) :
    ∃ i, decode (.uop u) = .ok i := by
  obtain ⟨i, -, hu⟩ := List.mem_filterMap.mp h
  have henc : encode i = .uop u := by
    unfold uopWordOf at hu
    split at hu <;> cases hu
    assumption
  exact ⟨i, henc ▸ decode_encode i⟩

/-- Settles O5: the words refused by the decoder's fields, and the words of the micro-programs are encodings. -/
theorem reservedUopWordsRefused : Obligations.ReservedUopWordsRefused :=
  ⟨decode_uop_refused, fun _ _ _ h => decode_of_mem_prog h⟩

/-- The operands of a variant (R2). -/
theorem Variant.bounds (v : Variant) : 4 ≤ v.nk ∧ v.nk ≤ 8 ∧ v.nr ≤ 14 := by
  cases v <;> decide

/-! The range of R109 for the three operations with an index, inside the IDX column of R108. -/

theorem idxInRange_uArk {nk nr : Nat} {rnd : Idx} :
    idxInRange nk nr (.uArk rnd) = true ↔ rnd.toNat ≤ nr ∧ rnd.toNat ≤ 14 := by
  simp [idxInRange]

theorem idxInRange_uKload {nk nr : Nat} {i : Idx} :
    idxInRange nk nr (.uKload i) = true ↔ i.toNat < nk ∧ i.toNat ≤ 7 := by
  simp [idxInRange]

theorem idxInRange_uKgen {nk nr : Nat} {i : Idx} :
    idxInRange nk nr (.uKgen i) = true ↔ 4 ≤ nk ∧ nk ≤ i.toNat ∧ i.toNat ≤ 4 * nr + 3 ∧ i.toNat ≤ 59 := by
  simp [idxInRange, and_assoc]

/-- A round number up to Nr is in range when it is written as an index. -/
theorem idxInRange_uArk_ofNat {nk nr : Nat} (hnr : nr ≤ 14) (r : Nat) (hr : r ≤ nr) :
    idxInRange nk nr (.uArk (BitVec.ofNat 6 r)) = true := by
  rw [idxInRange_uArk, BitVec.toNat_ofNat]
  omega

/-- The key expansion program keeps IDX in the range of R109 (R208). -/
theorem progKexp_idxInRange {nk nr : Nat} (hnk : 4 ≤ nk) (hnk8 : nk ≤ 8) (hnr : nr ≤ 14) :
    ∀ i ∈ progKexp nk nr, idxInRange nk nr i = true := by
  simp only [progKexp, List.forall_mem_append, List.forall_mem_map, List.mem_range, idxInRange_uKload,
    idxInRange_uKgen, BitVec.toNat_ofNat]
  exact ⟨fun j hj => by omega, fun j hj => by omega⟩

/-- The ENCRYPT program keeps IDX in the range of R109 (R208). -/
theorem progEnc_idxInRange {nk nr : Nat} (hnr : nr ≤ 14) : ∀ i ∈ progEnc nr, idxInRange nk nr i = true := by
  have hArk := idxInRange_uArk_ofNat (nk := nk) hnr
  simp only [progEnc, encRound, List.forall_mem_append, List.forall_mem_flatMap, List.mem_range, List.forall_mem_cons]
  exact ⟨⟨⟨rfl, hArk 0 (Nat.zero_le nr), nofun⟩, fun j hj => ⟨rfl, rfl, rfl, hArk (j + 1) (by omega), nofun⟩⟩,
    rfl, rfl, hArk nr le_rfl, rfl, nofun⟩

/-- The DECRYPT program keeps IDX in the range of R109 (R208). -/
theorem progDec_idxInRange {nk nr : Nat} (hnr : nr ≤ 14) : ∀ i ∈ progDec nr, idxInRange nk nr i = true := by
  have hArk := idxInRange_uArk_ofNat (nk := nk) hnr
  simp only [progDec, decRound, List.forall_mem_append, List.forall_mem_flatMap, List.mem_range, List.forall_mem_cons]
  exact ⟨⟨⟨rfl, hArk nr le_rfl, nofun⟩, fun j hj => ⟨rfl, rfl, hArk (nr - 1 - j) (by omega), rfl, nofun⟩⟩,
    rfl, rfl, hArk 0 (Nat.zero_le nr), rfl, nofun⟩

/-- The micro-programs of a variant keep IDX in the range of R109. -/
theorem idxInRange_of_mem_progInstrs {v : Variant} {p : Phase} {i : Instr} (h : i ∈ progInstrs p v.nk v.nr) :
    idxInRange v.nk v.nr i = true := by
  obtain ⟨hnk, hnk8, hnr⟩ := v.bounds
  cases p with
  | idle => exact absurd h List.not_mem_nil
  | kexp => exact progKexp_idxInRange hnk hnk8 hnr i h
  | enc => exact progEnc_idxInRange hnr i h
  | dec => exact progDec_idxInRange hnr i h

/-- A uop with an index outside its range is refused by name (R109). -/
theorem withIdx_outOfRange {i : Instr} {s t : State} (h : ¬idxInRange s.opNk.toNat s.opNr.toNat i = true) :
    withIdx i s t = .refused .idxOutOfRange :=
  withIdx_refused.mpr ⟨Bool.eq_false_iff.mpr h, rfl⟩

/-- Settles O6: the micro-programs keep to `idxInRange`, and a uop whose index is outside it is refused. -/
theorem idxRangeKeptAndRefusedOutside : Obligations.IdxRangeKeptAndRefusedOutside := by
  refine ⟨fun v p idx => ⟨fun h => ?_, fun h => ?_, fun h => ?_⟩, fun s idx => ⟨fun h => ?_, fun h => ?_, fun h => ?_⟩⟩
  · exact (idxInRange_uArk.mp (idxInRange_of_mem_progInstrs h)).1
  · exact (idxInRange_uKload.mp (idxInRange_of_mem_progInstrs h)).1
  · obtain ⟨-, hlow, hhigh, -⟩ := idxInRange_uKgen.mp (idxInRange_of_mem_progInstrs h)
    exact ⟨hlow, hhigh⟩
  · exact withIdx_outOfRange (by rw [idxInRange_uArk]; omega)
  · exact withIdx_outOfRange (by rw [idxInRange_uKload]; omega)
  · exact withIdx_outOfRange (by rw [idxInRange_uKgen]; omega)

end Sys2Proof.Machine
end

section
/-! SUPPORT. Multiplication by a fixed byte in GF(2^8) (40_constant_tables.md R130 to R132): it is additive and commutes with
`xtime`, and every additive map that commutes with `xtime` passes through a product.  So an inverse (R133) is unique. -/

namespace Sys2Proof.Machine

/-- The two middle terms of a sum of four change places. -/
theorem xor_xor_xor_comm (a b c d : Byte) : a ^^^ b ^^^ (c ^^^ d) = a ^^^ c ^^^ (b ^^^ d) := by
  ac_rfl

/-- `xtime` is additive: the shift is, and so is the reduction, which depends on the top bit only. -/
theorem xtime_xor (x y : Byte) : xtime (x ^^^ y) = xtime x ^^^ xtime y := by
  simp only [xtime, BitVec.shiftLeft_xor_distrib, BitVec.getLsbD_xor]
  rw [xor_xor_xor_comm]
  congr 1
  cases x.getLsbD 7 <;> cases y.getLsbD 7 <;> rfl

/-- The loop of R131 is additive in the partial product and the shifted operand together. -/
theorem galoisLoop_xor (b : Byte) (bits : List Nat) (p q x y : Byte) :
    galoisLoop b bits (p ^^^ q) (x ^^^ y) = galoisLoop b bits p x ^^^ galoisLoop b bits q y := by
  induction bits generalizing p q x y with
  | nil => rfl
  | cons i bits ih =>
    simp only [galoisLoop, xtime_xor, ← ih]
    split
    · rw [xor_xor_xor_comm]
    · rfl

/-- Multiplication distributes over XOR on the left (R132). -/
theorem galoisMul_xor_left (x y b : Byte) : galoisMul (x ^^^ y) b = galoisMul x b ^^^ galoisMul y b :=
  galoisLoop_xor b _ 0x00#8 0x00#8 x y

section
variable {f : Byte → Byte} (hadd : ∀ x y, f (x ^^^ y) = f x ^^^ f y) (hxtime : ∀ x, f (xtime x) = xtime (f x))
include hadd hxtime

/-- The loop of R131 under an additive map that commutes with `xtime`. -/
theorem map_galoisLoop (b : Byte) (bits : List Nat) (p x : Byte) :
    f (galoisLoop b bits p x) = galoisLoop b bits (f p) (f x) := by
  induction bits generalizing p x with
  | nil => rfl
  | cons i bits ih => simp only [galoisLoop, ih, hxtime, apply_ite f, hadd]

/-- An additive map that commutes with `xtime` passes through a product to its first factor. -/
theorem map_galoisMul (a b : Byte) : f (galoisMul a b) = galoisMul (f a) b := by
  have hzero : f 0x00#8 = 0x00#8 := by simpa using hadd 0x00#8 0x00#8
  rw [galoisMul, map_galoisLoop hadd hxtime, hzero, galoisMul]

end

/-- 0x00 annihilates (R132): the zero map passes through a product. -/
theorem galoisMul_zero_left (b : Byte) : galoisMul 0x00#8 b = 0x00#8 :=
  (map_galoisMul (f := fun _ => 0x00#8) (fun _ _ => rfl) (fun _ => rfl) 0x00#8 b).symm

/-- 0x01 is the identity (R132). -/
theorem galoisMul_one_left (b : Byte) : galoisMul 0x01#8 b = b := by
  revert b
  decide

/-- Multiplication by b commutes with `xtime`. -/
theorem galoisMul_xtime_left (x b : Byte) : galoisMul (xtime x) b = xtime (galoisMul x b) :=
  (map_galoisMul xtime_xor (fun _ => rfl) x b).symm

/-- Two factors change places, which is commutativity and associativity together (R132). -/
theorem galoisMul_right_comm (a b c : Byte) : galoisMul (galoisMul a b) c = galoisMul (galoisMul a c) b :=
  map_galoisMul (f := (galoisMul · c)) (galoisMul_xor_left · · c) (galoisMul_xtime_left · c) a b

/-- Multiplication is commutative (R132). -/
theorem galoisMul_comm (a b : Byte) : galoisMul a b = galoisMul b a := by
  simpa only [galoisMul_one_left] using galoisMul_right_comm 0x01#8 a b

/-- Multiplication is associative (R132). -/
theorem galoisMul_assoc (a b c : Byte) : galoisMul (galoisMul a b) c = galoisMul a (galoisMul b c) := by
  rw [galoisMul_comm a b, galoisMul_right_comm, galoisMul_comm]

/-- Multiplication distributes over XOR on the right (R132). -/
theorem galoisMul_xor_right (a x y : Byte) : galoisMul a (x ^^^ y) = galoisMul a x ^^^ galoisMul a y := by
  simp only [galoisMul_comm a, galoisMul_xor_left]

/-- `xtime` is multiplication by 2 (R131). -/
theorem galoisMul_two_left (x : Byte) : galoisMul 0x02#8 x = xtime x :=
  calc galoisMul 0x02#8 x = xtime (galoisMul 0x01#8 x) := galoisMul_xtime_left 0x01#8 x
    _ = xtime x := by rw [galoisMul_one_left]

/-- A byte has at most one inverse (R132). -/
theorem eq_of_galoisMul_eq_one {b x y : Byte} (hx : galoisMul b x = 0x01#8) (hy : galoisMul b y = 0x01#8) : x = y :=
  calc x = galoisMul (galoisMul b y) x := by rw [hy, galoisMul_one_left]
    _ = galoisMul (galoisMul b x) y := galoisMul_right_comm b y x
    _ = y := by rw [hx, galoisMul_one_left]

end Sys2Proof.Machine
end

section
/-! SUPPORT. Every non-zero byte has an inverse (R132).  Squaring is additive and multiplicative, so squaring eight times is
the identity, since it fixes 0x01 and 0x02.  Hence b = b^256 = b • (b • c) for some c, and b • c is its own
square, which only 0x00 and 0x01 are. -/

namespace Sys2Proof.Machine

/-- The square of a byte in GF(2^8). -/
def galoisSquare (b : Byte) : Byte := galoisMul b b

/-- Squaring is additive: the two mixed products cancel. -/
theorem galoisSquare_xor (x y : Byte) : galoisSquare (x ^^^ y) = galoisSquare x ^^^ galoisSquare y := by
  simp only [galoisSquare, galoisMul_xor_left, galoisMul_xor_right, galoisMul_comm y x]
  rw [BitVec.xor_assoc, ← BitVec.xor_assoc (galoisMul x y), BitVec.xor_self, BitVec.zero_xor]

/-- Squaring is multiplicative. -/
theorem galoisSquare_galoisMul (x y : Byte) :
    galoisSquare (galoisMul x y) = galoisMul (galoisSquare x) (galoisSquare y) := by
  simp only [galoisSquare, ← galoisMul_assoc, galoisMul_right_comm x y x]

/-- `b^256 = b`: squaring eight times fixes 0x02, so it commutes with `xtime` and passes through the product 0x01 • b. -/
theorem galoisSquare_iterate_eight (b : Byte) : galoisSquare^[8] b = b := by
  have hone : galoisSquare^[8] 0x01#8 = 0x01#8 := by decide
  have htwo : galoisSquare^[8] 0x02#8 = 0x02#8 := by decide
  have hadd := Function.Semiconj₂.iterate (op := (· ^^^ ·)) galoisSquare_xor 8
  have hmul := Function.Semiconj₂.iterate galoisSquare_galoisMul 8
  have hxtime (x : Byte) : galoisSquare^[8] (xtime x) = xtime (galoisSquare^[8] x) := by
    rw [← galoisMul_two_left, hmul.eq, htwo, galoisMul_two_left]
  calc galoisSquare^[8] b = galoisSquare^[8] (galoisMul 0x01#8 b) := by rw [galoisMul_one_left]
    _ = galoisMul (galoisSquare^[8] 0x01#8) b := map_galoisMul hadd hxtime 0x01#8 b
    _ = b := by rw [hone, galoisMul_one_left]

/-- A square repeated is a multiple of the first square. -/
theorem galoisSquare_iterate_eq_mul (n : Nat) (b : Byte) :
    ∃ c, galoisSquare^[n + 1] b = galoisMul (galoisSquare b) c := by
  induction n with
  | zero => exact ⟨0x01#8, by rw [galoisMul_comm, galoisMul_one_left]; rfl⟩
  | succ n ih =>
    obtain ⟨c, hc⟩ := ih
    rw [Function.iterate_succ_apply', hc, galoisSquare, galoisMul_assoc]
    exact ⟨_, rfl⟩

/-- The bytes that are their own square. -/
theorem eq_zero_or_one_of_galoisSquare_eq {e : Byte} (h : galoisSquare e = e) : e = 0x00#8 ∨ e = 0x01#8 := by
  revert e
  decide

/-- A non-zero byte has an inverse (R132). -/
theorem exists_galoisMul_eq_one {b : Byte} (hb : b ≠ 0x00#8) : ∃ c, galoisMul b c = 0x01#8 := by
  obtain ⟨c, hc⟩ := galoisSquare_iterate_eq_mul 7 b
  have hfix : galoisMul b (galoisMul b c) = b := by
    rw [← galoisMul_assoc, ← galoisSquare, ← hc, galoisSquare_iterate_eight]
  have hsquare : galoisSquare (galoisMul b c) = galoisMul b c := by
    rw [galoisSquare, galoisMul_right_comm, hfix]
  obtain hzero | hone := eq_zero_or_one_of_galoisSquare_eq hsquare
  · rw [hzero, galoisMul_comm, galoisMul_zero_left] at hfix
    exact absurd hfix.symm hb
  · exact ⟨c, hone⟩

end Sys2Proof.Machine
end

section
/-! SUPPORT. The search of `ginv` finds the inverse (R133). -/

namespace Sys2Proof.Machine

/-- `ginv` finds an inverse where there is one. -/
theorem galoisMul_ginv_of_exists {b x : Byte} (h : galoisMul b x = 0x01#8) : galoisMul b (ginv b) = 0x01#8 := by
  have hmem : x ∈ (List.range 256).map (BitVec.ofNat 8) :=
    List.mem_map.mpr ⟨x.toNat, List.mem_range.mpr x.isLt, BitVec.ofNat_toNat 8 x⟩
  have hfound : ((List.range 256).map (BitVec.ofNat 8)).find? (fun y => galoisMul b y == 0x01#8) |>.isSome :=
    List.find?_isSome.mpr ⟨x, hmem, by simp [h]⟩
  obtain ⟨y, hy⟩ := Option.isSome_iff_exists.mp hfound
  rw [ginv, hy]
  simpa using List.find?_some hy

/-- An inverse of b is `ginv b`. -/
theorem eq_ginv {b x : Byte} (h : galoisMul b x = 0x01#8) : x = ginv b :=
  eq_of_galoisMul_eq_one h (galoisMul_ginv_of_exists h)

/-- 0x00 has no inverse, and `ginv` falls back on 0x00 (R133). -/
theorem ginv_zero : ginv 0x00#8 = 0x00#8 := by
  rw [ginv, List.find?_eq_none.mpr (by simp [galoisMul_zero_left]), Option.getD_none]

/-- Settles O58: a non-zero byte has an inverse, `ginv` finds one, and there is at most one. -/
theorem ginvIsTheInverse : Obligations.GinvIsTheInverse := by
  refine ⟨fun b hb => ⟨?_, fun x hx => eq_ginv hx⟩, ginv_zero, ?_, ?_⟩
  · obtain ⟨c, hc⟩ := exists_galoisMul_eq_one hb
    exact galoisMul_ginv_of_exists hc
  · exact (eq_ginv (galoisMul_one_left 0x01#8)).symm
  · have hinv : galoisMul 0x53#8 0xCA#8 = 0x01#8 := by decide
    exact (eq_ginv hinv).symm

end Sys2Proof.Machine
end

section
/-! SUPPORT. The round transforms that move or replace single bytes, by the cells of S (41_round_transforms.md R151 to R154,
R157). -/

namespace Sys2Proof.Machine

@[simp] theorem cell_sregOfBlock (b : Block) (r c : Fin 4) : cell (sregOfBlock b) r c = byteOf b[c] r :=
  cell_sregOf _ r c

@[simp] theorem cell_subBytes (x : SReg) (r c : Fin 4) : cell (subBytes x) r c = sbox (cell x r c) :=
  cell_sregOf _ r c

@[simp] theorem cell_invSubBytes (x : SReg) (r c : Fin 4) : cell (invSubBytes x) r c = invSbox (cell x r c) :=
  cell_sregOf _ r c

@[simp] theorem cell_shiftRows (x : SReg) (r c : Fin 4) : cell (shiftRows x) r c = cell x r (c + r) :=
  cell_sregOf _ r c

@[simp] theorem cell_invShiftRows (x : SReg) (r c : Fin 4) : cell (invShiftRows x) r c = cell x r (c - r) :=
  cell_sregOf _ r c

@[simp] theorem cell_addRoundKey (w : KeyStore) (rnd : Nat) (x : SReg) (q c : Fin 4) :
    cell (addRoundKey w rnd x) q c = cell x q c ^^^ byteOf (wAt w (4 * rnd + c.val)) q :=
  cell_sregOf _ q c

end Sys2Proof.Machine
end

section
/-! SUPPORT. The byte substitutions (41_round_transforms.md R151, R152): the two tables undo each other, and so do the two
transforms, cell by cell. -/

namespace Sys2Proof.Machine

/-- INV_SBOX undoes SBOX (R136). -/
theorem invSbox_sbox (b : Byte) : invSbox (sbox b) = b := by
  revert b
  decide

/-- SBOX undoes INV_SBOX (R136): it is injective, hence onto the 256 bytes, so its left inverse is also its right inverse. -/
theorem sbox_invSbox (b : Byte) : sbox (invSbox b) = b :=
  have hinj : Function.Injective sbox := Function.LeftInverse.injective invSbox_sbox
  Function.LeftInverse.rightInverse_of_surjective invSbox_sbox (Finite.surjective_of_injective hinj) b

theorem invSubBytes_subBytes (x : SReg) : invSubBytes (subBytes x) = x :=
  sreg_ext fun r c => by rw [cell_invSubBytes, cell_subBytes, invSbox_sbox]

theorem subBytes_invSubBytes (x : SReg) : subBytes (invSubBytes x) = x :=
  sreg_ext fun r c => by rw [cell_subBytes, cell_invSubBytes, sbox_invSbox]

/-- Settles O18: U_SB by cells; in a state of equal bytes every cell is one table entry. -/
theorem subBytesUop : Obligations.SubBytesUop := by
  refine ⟨rfl, fun s => ⟨subBytes s.sreg, rfl, cell_subBytes s.sreg⟩, fun r c => ?_, fun r c => ?_, by decide⟩
  · rw [cell_subBytes, cell_sregOf]
    rfl
  · rw [cell_subBytes, cell_sregOf]
    rfl

/-- Settles O19: U_ISB by cells, and the inverse law from that of the tables. -/
theorem invSubBytesUop : Obligations.InvSubBytesUop := by
  refine ⟨rfl, fun s => ⟨invSubBytes s.sreg, rfl, cell_invSubBytes s.sreg⟩, fun r c => ?_, invSubBytes_subBytes,
    by decide⟩
  rw [cell_invSubBytes, cell_sregOf]
  rfl

end Sys2Proof.Machine
end

section
/-! SUPPORT. The row shifts (41_round_transforms.md R153, R154): the algebra of the column index modulo 4. -/

namespace Sys2Proof.Machine

theorem invShiftRows_shiftRows (x : SReg) : invShiftRows (shiftRows x) = x :=
  sreg_ext fun r c => by rw [cell_invShiftRows, cell_shiftRows, sub_add_cancel]

theorem shiftRows_invShiftRows (x : SReg) : shiftRows (invShiftRows x) = x :=
  sreg_ext fun r c => by rw [cell_shiftRows, cell_invShiftRows, add_sub_cancel_right]

/-- Four rotations of a row by the same number of places put every column back. -/
theorem add_four_times_eq_self (r c : Fin 4) : c + r + r + r + r = c := by
  revert r c
  decide

theorem shiftRows_four_times (x : SReg) : shiftRows (shiftRows (shiftRows (shiftRows x))) = x :=
  sreg_ext fun r c => by simp only [cell_shiftRows, add_four_times_eq_self]

theorem shiftRows_of_equal_columns {x : SReg} (h : ∀ r c d, cell x r c = cell x r d) : shiftRows x = x :=
  sreg_ext fun r c => (cell_shiftRows x r c).trans (h r (c + r) c)

/-- Settles O20: U_SR by cells; the permutation of a block's bytes is the definition read at each of its sixteen places. -/
theorem shiftRowsUop : Obligations.ShiftRowsUop := by
  refine ⟨rfl, fun s => ⟨shiftRows s.sreg, rfl, fun r c d hd => ?_⟩, fun x c => ?_,
    fun x => shiftRows_of_equal_columns, shiftRows_four_times, fun b => rfl, by decide⟩
  · have hcol : d = c + r := Fin.ext (hd.trans (Fin.val_add c r).symm)
    rw [cell_shiftRows, hcol]
  · rw [cell_shiftRows, add_zero]

/-- Settles O21: U_ISR by cells; row 2 moves the same way in both directions because 2 = -2 modulo 4. -/
theorem invShiftRowsUop : Obligations.InvShiftRowsUop := by
  refine ⟨rfl, fun s => ⟨invShiftRows s.sreg, rfl, fun r c d hd => ?_⟩, invShiftRows_shiftRows,
    fun x c => ⟨?_, ?_⟩, fun b => rfl, by decide⟩
  · have hcol : d = c - r := by
      apply Fin.ext
      rw [hd, Fin.val_sub]
      omega
    rw [cell_invShiftRows, hcol]
  · rw [cell_invShiftRows, sub_zero]
  · have htwo : -(2 : Fin 4) = 2 := rfl
    rw [cell_invShiftRows, cell_shiftRows, sub_eq_add_neg, htwo]

end Sys2Proof.Machine
end

section
/-! SUPPORT. A uop word with an index, as a shift and a disjunction (30_encoding.md R107, R115). -/

namespace Sys2Proof

/-- A uop word is `(IDX << 4) | OPC` (R115). -/
theorem uopWord_eq_or (idx : Idx) (opc : BitVec 4) :
    uopWord idx opc = (idx.setWidth 12 <<< 4) ||| opc.setWidth 12 := by
  rw [← BitVec.setWidth_eq (uopWord idx opc), uopWord, BitVec.setWidth_append_append_eq_shiftLeft_setWidth_or]
  simp

end Sys2Proof
end

section
/-! SUPPORT. AddRoundKey (41_round_transforms.md R157): XOR with the four words of the round key, by bytes or by words. -/

namespace Sys2Proof.Machine

@[simp] theorem byteOf_zero (j : Fin 4) : byteOf 0#32 j = 0x00#8 := BitVec.extractLsb'_zero

@[simp] theorem byteOf_xor (x y : Word) (j : Fin 4) : byteOf (x ^^^ y) j = byteOf x j ^^^ byteOf y j :=
  BitVec.extractLsb'_xor

theorem addRoundKey_addRoundKey (w : KeyStore) (rnd : Nat) (x : SReg) :
    addRoundKey w rnd (addRoundKey w rnd x) = x :=
  sreg_ext fun q c => by rw [cell_addRoundKey, cell_addRoundKey, BitVec.xor_assoc, BitVec.xor_self, BitVec.xor_zero]

/-- On a block, AddRoundKey XORs each of the four words with a word of the round key. -/
theorem addRoundKey_sregOfBlock (w : KeyStore) (rnd : Nat) (b : Block) :
    addRoundKey w rnd (sregOfBlock b) =
      sregOfBlock #v[b[0] ^^^ wAt w (4 * rnd), b[1] ^^^ wAt w (4 * rnd + 1), b[2] ^^^ wAt w (4 * rnd + 2),
        b[3] ^^^ wAt w (4 * rnd + 3)] := by
  refine sreg_ext fun q c => ?_
  rw [cell_addRoundKey, cell_sregOfBlock, cell_sregOfBlock, ← byteOf_xor]
  fin_cases c <;> rfl

/-- Settles O24: U_ARK by cells inside its range, XOR cancels itself, and the example word by word. -/
theorem addRoundKeyUop : Obligations.AddRoundKeyUop := by
  refine ⟨fun rnd => ?_, fun s rnd hnr h14 => ?_, addRoundKey_addRoundKey, fun w rnd x hzero => ?_,
    fun w rnd x heq q c => ?_, fun w h0 h1 h2 h3 => ?_⟩
  · have hword : encode (.uArk rnd) = .uop ((rnd.setWidth 12 <<< 4) ||| 0x4#12) :=
      congrArg Encoded.uop (uopWord_eq_or rnd 0x4#4)
    rw [← hword, decode_encode]
  · have hidx : idxInRange s.opNk.toNat s.opNr.toNat (.uArk rnd) = true := idxInRange_uArk.mpr ⟨hnr, h14⟩
    exact ⟨_, withIdx_next.mpr ⟨hidx, rfl⟩, cell_addRoundKey s.w rnd.toNat s.sreg⟩
  · exact sreg_ext fun q c => by rw [cell_addRoundKey, hzero, byteOf_zero, BitVec.xor_zero]
  · rw [cell_addRoundKey, heq, BitVec.xor_self]
  · rw [addRoundKey_sregOfBlock, blockOfSreg_sregOfBlock, h0, h1, h2, h3]
    rfl

end Sys2Proof.Machine
end

section
/-! SUPPORT. Multiplication of every column of S by a circulant matrix over GF(2^8), which MixColumns and InvMixColumns are
(41_round_transforms.md R155, R156).  Two such matrices compose to the circulant of their product, so the two transforms
undo each other because one product of four coefficients is (01, 00, 00, 00). -/

namespace Sys2Proof.Machine

/-- Every column of S multiplied by the matrix whose row r has the coefficients k from column r on, cyclically. -/
def circulant (k : Fin 4 → Byte) (x : SReg) : SReg :=
  sregOf fun r c =>
    galoisMul (k 0) (cell x r c) ^^^ galoisMul (k 1) (cell x (r + 1) c) ^^^ galoisMul (k 2) (cell x (r + 2) c)
      ^^^ galoisMul (k 3) (cell x (r + 3) c)

/-- The coefficients of the product of two circulant matrices. -/
def circulantMul (k l : Fin 4 → Byte) (m : Fin 4) : Byte :=
  galoisMul (k 0) (l m) ^^^ galoisMul (k 1) (l (m + 3)) ^^^ galoisMul (k 2) (l (m + 2)) ^^^ galoisMul (k 3) (l (m + 1))

/-- The coefficients of R155. -/
def mixCoeffs : Fin 4 → Byte := ![0x02#8, 0x03#8, 0x01#8, 0x01#8]

/-- The coefficients of R156. -/
def invMixCoeffs : Fin 4 → Byte := ![0x0e#8, 0x0b#8, 0x0d#8, 0x09#8]

/-- The coefficients of the identity matrix. -/
def oneCoeffs : Fin 4 → Byte := ![0x01#8, 0x00#8, 0x00#8, 0x00#8]

theorem mixColumns_eq_circulant (x : SReg) : mixColumns x = circulant mixCoeffs x := by
  simp [mixColumns, circulant, mixCoeffs, galoisMul_one_left]

theorem invMixColumns_eq_circulant (x : SReg) : invMixColumns x = circulant invMixCoeffs x := rfl

theorem circulant_oneCoeffs (x : SReg) : circulant oneCoeffs x = x :=
  sreg_ext fun r c => by simp [circulant, oneCoeffs, galoisMul_one_left, galoisMul_zero_left]

/-- Multiplying by l and then by k is multiplying by their product: both are the XOR of the same sixteen terms. -/
theorem circulant_circulant (k l : Fin 4 → Byte) (x : SReg) :
    circulant k (circulant l x) = circulant (circulantMul k l) x := by
  refine sreg_ext fun r c => ?_
  simp only [circulant, circulantMul, cell_sregOf, galoisMul_xor_left, galoisMul_xor_right, galoisMul_assoc,
    add_assoc, Fin.reduceAdd, add_zero, zero_add]
  ac_rfl

theorem circulant_leftInverse {k l : Fin 4 → Byte} (h : circulantMul k l = oneCoeffs) (x : SReg) :
    circulant k (circulant l x) = x := by
  rw [circulant_circulant, h, circulant_oneCoeffs]

/-- The four rows of the product, each with its coefficients in the order of the column's bytes. -/
theorem cell_circulant (k : Fin 4 → Byte) (x : SReg) (c : Fin 4) :
    cell (circulant k x) 0 c = galoisMul (k 0) (cell x 0 c) ^^^ galoisMul (k 1) (cell x 1 c)
      ^^^ galoisMul (k 2) (cell x 2 c) ^^^ galoisMul (k 3) (cell x 3 c) ∧
    cell (circulant k x) 1 c = galoisMul (k 3) (cell x 0 c) ^^^ galoisMul (k 0) (cell x 1 c)
      ^^^ galoisMul (k 1) (cell x 2 c) ^^^ galoisMul (k 2) (cell x 3 c) ∧
    cell (circulant k x) 2 c = galoisMul (k 2) (cell x 0 c) ^^^ galoisMul (k 3) (cell x 1 c)
      ^^^ galoisMul (k 0) (cell x 2 c) ^^^ galoisMul (k 1) (cell x 3 c) ∧
    cell (circulant k x) 3 c = galoisMul (k 1) (cell x 0 c) ^^^ galoisMul (k 2) (cell x 1 c)
      ^^^ galoisMul (k 3) (cell x 2 c) ^^^ galoisMul (k 0) (cell x 3 c) := by
  simp only [circulant, cell_sregOf, Fin.reduceAdd, zero_add, true_and]
  refine ⟨?_, ?_, ?_⟩
  all_goals ac_rfl

/-- A column of equal bytes is a fixed point when the four coefficients add up to 01 (R155, R156). -/
theorem circulant_of_equal_bytes {k : Fin 4 → Byte} (hk : k 0 ^^^ k 1 ^^^ k 2 ^^^ k 3 = 0x01#8) {x : SReg} {c : Fin 4}
    (h : ∀ r, cell x r c = cell x 0 c) (r : Fin 4) : cell (circulant k x) r c = cell x r c := by
  simp only [circulant, cell_sregOf, h]
  rw [← galoisMul_xor_left, ← galoisMul_xor_left, ← galoisMul_xor_left, hk, galoisMul_one_left]

theorem invMixColumns_mixColumns (x : SReg) : invMixColumns (mixColumns x) = x := by
  have hone : circulantMul invMixCoeffs mixCoeffs = oneCoeffs := by decide
  rw [invMixColumns_eq_circulant, mixColumns_eq_circulant, circulant_leftInverse hone]

theorem mixColumns_invMixColumns (x : SReg) : mixColumns (invMixColumns x) = x := by
  have hone : circulantMul mixCoeffs invMixCoeffs = oneCoeffs := by decide
  rw [mixColumns_eq_circulant, invMixColumns_eq_circulant, circulant_leftInverse hone]

/-- Settles O22: U_MC is the circulant of (02, 03, 01, 01), whose coefficients add up to 01. -/
theorem mixColumnsUop : Obligations.MixColumnsUop := by
  refine ⟨rfl, fun s => ⟨mixColumns s.sreg, rfl, fun c => ?_⟩, fun x c h => ?_, by decide, by decide⟩
  · rw [mixColumns_eq_circulant]
    simpa [mixCoeffs, galoisMul_one_left] using cell_circulant mixCoeffs s.sreg c
  · rw [mixColumns_eq_circulant]
    exact circulant_of_equal_bytes (by decide) h

/-- Settles O23: U_IMC is the circulant of (0e, 0b, 0d, 09), the inverse of that of U_MC on both sides. -/
theorem invMixColumnsUop : Obligations.InvMixColumnsUop := by
  refine ⟨rfl, fun s => ⟨invMixColumns s.sreg, rfl, fun c => ?_⟩, fun x c h => ?_, invMixColumns_mixColumns,
    mixColumns_invMixColumns, by decide, by decide⟩
  · exact cell_circulant invMixCoeffs s.sreg c
  · rw [invMixColumns_eq_circulant]
    exact circulant_of_equal_bytes (by decide) h

end Sys2Proof.Machine
end

section
/-! SUPPORT. The byte substitutions commute with the row shifts (41_round_transforms.md R159): one replaces bytes where they
are, the other only moves them. -/

namespace Sys2Proof.Machine

theorem subBytes_shiftRows (x : SReg) : subBytes (shiftRows x) = shiftRows (subBytes x) :=
  sreg_ext fun r c => by simp only [cell_subBytes, cell_shiftRows]

theorem invSubBytes_invShiftRows (x : SReg) : invSubBytes (invShiftRows x) = invShiftRows (invSubBytes x) :=
  sreg_ext fun r c => by simp only [cell_invSubBytes, cell_invShiftRows]

/-- Settles O25: the inverse law of each pair of transforms, and the two commutations. -/
theorem inverseTransformLaws : Obligations.InverseTransformLaws :=
  ⟨invSubBytes_subBytes, subBytes_invSubBytes, invShiftRows_shiftRows, shiftRows_invShiftRows,
    invMixColumns_mixColumns, addRoundKey_addRoundKey, subBytes_shiftRows, invSubBytes_invShiftRows⟩

end Sys2Proof.Machine
end

section
/-! SUPPORT. RotWord and SubWord by the four bytes of a word (42_key_expansion.md R180, R181): one moves bytes, the other
replaces them. -/

namespace Sys2Proof.Machine

/-- A word is put together from some four bytes (R13). -/
theorem exists_wordOf (w : Word) : ∃ b0 b1 b2 b3, w = wordOf b0 b1 b2 b3 :=
  ⟨_, _, _, _, (wordOf_byteOf w).symm⟩

theorem rotWord_wordOf (b0 b1 b2 b3 : Byte) : rotWord (wordOf b0 b1 b2 b3) = wordOf b1 b2 b3 b0 := by
  obtain ⟨h0, h1, h2, h3⟩ := byteOf_wordOf b0 b1 b2 b3
  rw [rotWord, h0, h1, h2, h3]

theorem subWord_wordOf (b0 b1 b2 b3 : Byte) :
    subWord (wordOf b0 b1 b2 b3) = wordOf (sbox b0) (sbox b1) (sbox b2) (sbox b3) := by
  obtain ⟨h0, h1, h2, h3⟩ := byteOf_wordOf b0 b1 b2 b3
  rw [subWord, h0, h1, h2, h3]

/-- RotWord is `{w[23:0], w[31:24]}` (R180): its first three bytes are adjacent in w. -/
theorem rotWord_eq_append (w : Word) : rotWord w = w.extractLsb' 0 24 ++ w.extractLsb' 24 8 := by
  have hlow : byteOf w 1 ++ byteOf w 2 ++ byteOf w 3 = w.extractLsb' 0 24 := by
    have hhigh : byteOf w 1 ++ byteOf w 2 = w.extractLsb' 8 16 :=
      BitVec.extractLsb'_append_extractLsb'_eq_extractLsb' rfl
    rw [hhigh]
    exact BitVec.extractLsb'_append_extractLsb'_eq_extractLsb' rfl
  rw [rotWord, wordOf, hlow]
  rfl

theorem rotWord_four_times (w : Word) : rotWord (rotWord (rotWord (rotWord w))) = w := by
  obtain ⟨b0, b1, b2, b3, rfl⟩ := exists_wordOf w
  simp only [rotWord_wordOf]

theorem byteOf_subWord (w : Word) (j : Fin 4) : byteOf (subWord w) j = sbox (byteOf w j) := by
  obtain ⟨h0, h1, h2, h3⟩ :=
    byteOf_wordOf (sbox (byteOf w 0)) (sbox (byteOf w 1)) (sbox (byteOf w 2)) (sbox (byteOf w 3))
  match j with
  | 0 => exact h0
  | 1 => exact h1
  | 2 => exact h2
  | 3 => exact h3

theorem subWord_rotWord (w : Word) : subWord (rotWord w) = rotWord (subWord w) := by
  obtain ⟨b0, b1, b2, b3, rfl⟩ := exists_wordOf w
  simp only [rotWord_wordOf, subWord_wordOf]

/-- Settles O26: RotWord and SubWord on a word given as its four bytes. -/
theorem rotWordAndSubWord : Obligations.RotWordAndSubWord :=
  ⟨fun w => byteOf_wordOf (byteOf w 1) (byteOf w 2) (byteOf w 3) (byteOf w 0), rotWord_eq_append,
    fun b => rotWord_wordOf b b b b, rotWord_four_times, by decide, byteOf_subWord, subWord_rotWord, by decide, by decide⟩

end Sys2Proof.Machine
end

section
/-! SUPPORT. A key word loaded into W (42_key_expansion.md R183), and the word of an indexed uop. -/

namespace Sys2Proof.Machine

/-- The decoder reads the word `(IDX << 4) | OPC` of an instruction (R107, R115). -/
theorem decode_uop_or {i : Instr} {idx : Idx} {opc : BitVec 4} (h : encode i = .uop (uopWord idx opc)) :
    decode (.uop ((idx.setWidth 12 <<< 4) ||| opc.setWidth 12)) = .ok i := by
  rw [← uopWord_eq_or, ← h, decode_encode]

/-- U_KLOAD inside its range copies the key word to W (R183, R109). -/
theorem exec_uKload {s : State} {i : Idx} (hnk : i.toNat < s.opNk.toNat) (h7 : i.toNat ≤ 7) :
    exec (.uKload i) s = .next (s.setW i.toNat (keyAt s.key i.toNat)) :=
  withIdx_next.mpr ⟨idxInRange_uKload.mpr ⟨hnk, h7⟩, rfl⟩

/-- Settles O27: U_KLOAD is one write of W, read back at the same and at another index. -/
theorem keyLoadUop : Obligations.KeyLoadUop := by
  refine ⟨fun i => decode_uop_or (opc := 0x9#4) rfl, fun s i hnk h7 => ⟨_, exec_uKload hnk h7, ?_, fun j hj => ?_⟩,
    fun s hnk hkey => ?_⟩
  · rw [wAt_setIfInBounds _ _ _ _ (by omega), if_pos rfl]
  · rw [wAt_setIfInBounds _ _ _ _ (by omega), if_neg hj]
  · have hrange : (0#6).toNat < s.opNk.toNat := by rw [hnk]; decide
    exact ⟨_, exec_uKload hrange (by decide), (wAt_setIfInBounds _ _ _ _ (by decide)).trans hkey⟩

end Sys2Proof.Machine
end

section
/-! SUPPORT. What writes the key schedule (42_key_expansion.md R188): among the instructions U_KLOAD and U_KGEN, which stand
in the program of KEYEXP only. -/

namespace Sys2Proof.Machine

/-- No CMD write changes W: it changes flags and the control state of the sequencer. -/
theorem writeCmd_w {v : Word} {s t : State} (h : writeCmd v s = .next t) : t.w = s.w := by
  obtain ⟨-, ht⟩ | ⟨-, -, ht⟩ | ⟨-, x, -, -, ht⟩ | ⟨-, -, -, x, p, -, -, ht⟩ := writeCmd_cases h <;> rw [ht]

/-- An instruction keeps W, or it is U_KLOAD or U_KGEN. -/
theorem exec_w {i : Instr} {s t : State} (h : exec i s = .next t) :
    t.w = s.w ∨ ∃ x, i = .uKload x ∨ i = .uKgen x := by
  cases i with
  | nop => exact .inl (writeCmd_w (v := 0#32) h)
  | keyexp => exact .inl (writeCmd_w (v := 1#32) h)
  | encrypt => exact .inl (writeCmd_w (v := 2#32) h)
  | decrypt => exact .inl (writeCmd_w (v := 3#32) h)
  | uLoad | uSb | uSr | uMc | uIsb | uIsr | uImc | uStore => cases h; exact .inl rfl
  | uArk rnd => obtain ⟨-, rfl⟩ := withIdx_next.mp h; exact .inl rfl
  | uKload x => exact .inr ⟨x, .inl rfl⟩
  | uKgen x => exact .inr ⟨x, .inr rfl⟩

theorem uopWordOf_eq_some {i : Instr} {u : UopWord} : uopWordOf i = some u ↔ encode i = .uop u := by
  cases h : encode i <;> simp [uopWordOf, h]

/-- The operation a word of a micro-program decodes to is the one it was made from (R208). -/
theorem mem_progInstrs_of_decode {p : Phase} {nk nr : Nat} {u : UopWord} {i : Instr} (hu : u ∈ prog p nk nr)
    (hi : decode (.uop u) = .ok i) : i ∈ progInstrs p nk nr := by
  obtain ⟨k, hk, henc⟩ := List.mem_filterMap.mp hu
  rw [← uopWordOf_eq_some.mp henc, decode_encode] at hi
  exact Except.ok.inj hi ▸ hk

/-- The operations that write W stand in the program of KEYEXP only (R208). -/
theorem phase_eq_kexp_of_mem_progInstrs {p : Phase} {nk nr : Nat} {x : Idx}
    (h : .uKload x ∈ progInstrs p nk nr ∨ .uKgen x ∈ progInstrs p nk nr) : p = .kexp := by
  cases p with
  | kexp => rfl
  | idle => simp [progInstrs] at h
  | enc => simp [progInstrs, progEnc, encRound] at h
  | dec => simp [progInstrs, progDec, decRound] at h

/-- Outside a KEYEXP the sequencer issues no uop that writes W, and it starts no KEYEXP. -/
theorem uopStep_keeps_w {s t : State} (hp : s.phase ≠ .kexp) (h : uopStep s = .next t) :
    t.w = s.w ∧ t.phase ≠ .kexp := by
  obtain ⟨u, i, v, hfetch, hdecode, hexec, hframe, hnext⟩ := uopStep_cases h
  have hmem := mem_progInstrs_of_decode (List.mem_of_getElem? hfetch) hdecode
  have hw : v.w = s.w := by
    obtain hw | ⟨x, rfl | rfl⟩ := exec_w hexec
    · exact hw
    · exact absurd (phase_eq_kexp_of_mem_progInstrs (.inl hmem)) hp
    · exact absurd (phase_eq_kexp_of_mem_progInstrs (.inr hmem)) hp
  have hphase : v.phase = s.phase := by rw [hframe]
  obtain ⟨-, rfl⟩ | ⟨-, rfl⟩ := hnext
  · exact ⟨hw, nofun⟩
  · exact ⟨hw, hphase ▸ hp⟩

theorem uopSteps_keeps_w {n : Nat} {s t : State} (hp : s.phase ≠ .kexp) (h : uopSteps n s = .next t) : t.w = s.w := by
  induction n generalizing s with
  | zero => exact (uopStep_keeps_w hp h).1
  | succ n ih =>
    obtain ⟨u, hu, ht⟩ := thenDo_next.mp h
    obtain ⟨hw, hpu⟩ := uopStep_keeps_w hp hu
    exact (ih hpu ht).trans hw

/-- ENCRYPT and DECRYPT only read W (R188). -/
theorem engineStep_keeps_w {s t : State} (hp : s.phase ≠ .kexp) (h : engineStep s = .next t) : t.w = s.w := by
  obtain ⟨-, he⟩ | ⟨-, -, he⟩ | ⟨-, -, he⟩ := engineStep_cases s <;> rw [he] at h
  · exact uopSteps_keeps_w hp h
  · cases h
    rfl
  · obtain ⟨u, hu, rfl⟩ := andThen_next.mp h
    exact (uopStep_keeps_w hp hu).1

/-- A step of the host keeps W, or it is the reset input (R75, R76, R272). -/
theorem hostStep_w {a : HostAction} {s t : State} (h : hostStep a s = .next t) :
    t.w = s.w ∨ (a = .reset ∧ t = s.resetInput) := by
  obtain hreset | ⟨addr, size, v, u, -, -, hu, rfl⟩ | ⟨-, ht, -⟩ := hostStep_cases h
  · exact .inr hreset
  · exact .inl (writeCmd_w hu : u.w = s.w)
  · exact .inl (by rw [ht])

/-- Settles O53: an instruction by its constructor, and a step by the agent that makes it. -/
theorem scheduleIsImmutable : Obligations.ScheduleIsImmutable := by
  refine ⟨fun i s t h hne => (exec_w h).resolve_left hne, fun s t h hne => ?_⟩
  obtain ⟨hdue, ts, hengine⟩ | ⟨n, a, rest, hturns, hdue, hhost⟩ := step_split h
  · refine .inl ⟨⟨hdue, ts, hengine⟩, ?_⟩
    by_contra hp
    exact hne (engineStep_keeps_w (s := s.setTurns ts) hp hengine)
  · obtain hw | ⟨rfl, ht⟩ := hostStep_w hhost
    · exact absurd hw hne
    · exact .inr ⟨n, rest, hturns, hdue, ht⟩

end Sys2Proof.Machine
end

section
/-! SUPPORT. A list made of two items, a run of blocks of four and a tail, by its places: the shape of PROG(ENC) and PROG(DEC)
(43_cipher_driver.md R208). -/

namespace Sys2Proof.Machine

section
variable {α : Type} {f : Nat → List α} {c : Nat} (hf : ∀ j, (f j).length = c)
include hf

theorem length_flatMap_range (n : Nat) : ((List.range n).flatMap f).length = c * n := by
  simp [List.length_flatMap, hf, Nat.mul_comm]

/-- A run of blocks of equal length, by the block and the place in it. -/
theorem getElem?_flatMap_range {n j k : Nat} (hj : j < n) (hk : k < c) :
    ((List.range n).flatMap f)[c * j + k]? = (f j)[k]? := by
  induction n with
  | zero => exact absurd hj (Nat.not_lt_zero j)
  | succ n ih =>
    have hlength := length_flatMap_range hf n
    rw [List.range_succ, List.flatMap_append, List.flatMap_singleton]
    obtain hlt | rfl := Nat.lt_succ_iff_lt_or_eq.mp hj
    · have hplace : c * j + k < c * n :=
        calc c * j + k < c * (j + 1) := by rw [Nat.mul_succ]; omega
          _ ≤ c * n := Nat.mul_le_mul_left c hlt
      rw [List.getElem?_append_left (hlength.symm ▸ hplace), ih hlt]
    · rw [List.getElem?_append_right (by omega), hlength, Nat.add_sub_cancel_left]

end

section
variable {f : Nat → List Instr} (hf : ∀ j, (f j).length = 4) (a b : Instr) (last : List Instr)
include hf

theorem length_rounds (n : Nat) : ([a, b] ++ (List.range n).flatMap f ++ last).length = 4 * n + 2 + last.length := by
  rw [List.length_append, List.length_append, length_flatMap_range hf, List.length_cons, List.length_singleton]
  omega

theorem getElem?_rounds {n j k : Nat} (hj : j < n) (hk : k < 4) :
    ([a, b] ++ (List.range n).flatMap f ++ last)[4 * j + k + 2]? = (f j)[k]? := by
  have hplace : 4 * j + k < ((List.range n).flatMap f).length := by
    rw [length_flatMap_range hf]
    omega
  calc ([a, b] ++ (List.range n).flatMap f ++ last)[4 * j + k + 2]?
      = ((List.range n).flatMap f ++ last)[4 * j + k]? := rfl
    _ = ((List.range n).flatMap f)[4 * j + k]? := List.getElem?_append_left hplace
    _ = (f j)[k]? := getElem?_flatMap_range hf hj hk

theorem getElem?_rounds_last (n k : Nat) :
    ([a, b] ++ (List.range n).flatMap f ++ last)[4 * n + 2 + k]? = last[k]? := by
  have hlength : ([a, b] ++ (List.range n).flatMap f).length = 4 * n + 2 := by
    simpa using length_rounds hf a b [] n
  rw [List.getElem?_append_right (by omega), hlength, Nat.add_sub_cancel_left]

end

end Sys2Proof.Machine
end

section
/-! SUPPORT. The micro-programs by their places and their lengths (43_cipher_driver.md R208). -/

namespace Sys2Proof.Machine

theorem encRound_length (rnd : Nat) : (encRound rnd).length = 4 := rfl

theorem decRound_length (rnd : Nat) : (decRound rnd).length = 4 := rfl

theorem progKexp_length {nk nr : Nat} (h : nk ≤ 4 * (nr + 1)) : (progKexp nk nr).length = 4 * (nr + 1) := by
  simp [progKexp]
  omega

theorem progKexp_getElem? {nk nr i : Nat} (h : i < 4 * (nr + 1)) :
    (progKexp nk nr)[i]? = some (if i < nk then .uKload (BitVec.ofNat 6 i) else .uKgen (BitVec.ofNat 6 i)) := by
  by_cases hi : i < nk
  · simp [progKexp, List.getElem?_append, hi]
  · have hrest : i - nk < 4 * nr + 4 - nk := by omega
    have hword : nk + (i - nk) = i := by omega
    simp [progKexp, List.getElem?_append, hi, hrest, hword]

theorem progEnc_length {nr : Nat} (h : 1 ≤ nr) : (progEnc nr).length = 4 * nr + 2 := by
  rw [progEnc, length_rounds fun j => encRound_length (j + 1)]
  simp only [List.length_cons, List.length_nil]
  omega

theorem progDec_length {nr : Nat} (h : 1 ≤ nr) : (progDec nr).length = 4 * nr + 2 := by
  rw [progDec, length_rounds fun j => decRound_length (nr - 1 - j)]
  simp only [List.length_cons, List.length_nil]
  omega

/-- Round `rnd` of ENCRYPT starts at place `4*rnd - 2`. -/
theorem progEnc_getElem?_round {nr rnd k : Nat} (h1 : 1 ≤ rnd) (hr : rnd < nr) (hk : k < 4) :
    (progEnc nr)[4 * rnd - 2 + k]? = (encRound rnd)[k]? := by
  obtain ⟨j, rfl⟩ := Nat.exists_eq_add_of_le' h1
  have hplace : 4 * (j + 1) - 2 + k = 4 * j + k + 2 := by omega
  rw [hplace, progEnc, getElem?_rounds (fun j => encRound_length (j + 1)) _ _ _ (by omega) hk]

/-- Round `rnd` of DECRYPT starts at place `4*(Nr - rnd) - 2`: the rounds run downwards. -/
theorem progDec_getElem?_round {nr rnd k : Nat} (h1 : 1 ≤ rnd) (hr : rnd < nr) (hk : k < 4) :
    (progDec nr)[4 * (nr - rnd) - 2 + k]? = (decRound rnd)[k]? := by
  have hplace : 4 * (nr - rnd) - 2 + k = 4 * (nr - 1 - rnd) + k + 2 := by omega
  have hround : nr - 1 - (nr - 1 - rnd) = rnd := by omega
  rw [hplace, progDec, getElem?_rounds (fun j => decRound_length (nr - 1 - j)) _ _ _ (by omega) hk, hround]

/-- The final round of ENCRYPT and the store start at place `4*Nr - 2`. -/
theorem progEnc_getElem?_last {nr : Nat} (h : 1 ≤ nr) (k : Nat) :
    (progEnc nr)[4 * nr - 2 + k]? = [.uSb, .uSr, .uArk (BitVec.ofNat 6 nr), .uStore][k]? := by
  have hplace : 4 * nr - 2 = 4 * (nr - 1) + 2 := by omega
  rw [hplace, progEnc, getElem?_rounds_last fun j => encRound_length (j + 1)]

/-- The final round of DECRYPT and the store start at place `4*Nr - 2`. -/
theorem progDec_getElem?_last {nr : Nat} (h : 1 ≤ nr) (k : Nat) :
    (progDec nr)[4 * nr - 2 + k]? = [.uIsr, .uIsb, .uArk 0#6, .uStore][k]? := by
  have hplace : 4 * nr - 2 = 4 * (nr - 1) + 2 := by omega
  rw [hplace, progDec, getElem?_rounds_last fun j => decRound_length (nr - 1 - j)]

/-- The schedule of a variant is longer than its key, and there is a round before the last. -/
theorem Variant.nk_le_schedule (v : Variant) : v.nk ≤ 4 * (v.nr + 1) ∧ 1 ≤ v.nr := by
  cases v <;> decide

/-- Four consecutive places of a list that hold a list of four. -/
theorem getElem?_four {l : List Instr} {n : Nat} {a b c d : Instr}
    (h : ∀ k, k < 4 → l[n - 2 + k]? = [a, b, c, d][k]?) (hn : 2 ≤ n) :
    l[n - 2]? = some a ∧ l[n - 1]? = some b ∧ l[n]? = some c ∧ l[n + 1]? = some d := by
  obtain ⟨m, rfl⟩ := Nat.exists_eq_add_of_le' hn
  exact ⟨h 0 (by decide), h 1 (by decide), h 2 (by decide), h 3 (by decide)⟩

/-- Settles O33: the key expansion by one index, the ciphers by round and place in the round. -/
theorem microProgramsAreTheRoundOrders : Obligations.MicroProgramsAreTheRoundOrders := by
  intro v
  obtain ⟨hnk, hnr⟩ := v.nk_le_schedule
  refine ⟨⟨progKexp_length hnk, progEnc_length hnr, progDec_length hnr⟩, fun i => progKexp_getElem?,
    ⟨rfl, rfl, rfl, rfl⟩, fun rnd h1 hr => ?_, ?_, ?_⟩
  · obtain ⟨henc0, henc1, henc2, henc3⟩ :=
      getElem?_four (n := 4 * rnd) (fun k => progEnc_getElem?_round h1 hr) (by omega)
    obtain ⟨hdec0, hdec1, hdec2, hdec3⟩ :=
      getElem?_four (n := 4 * (v.nr - rnd)) (fun k => progDec_getElem?_round h1 hr) (by omega)
    exact ⟨henc0, henc1, henc2, henc3, hdec0, hdec1, hdec2, hdec3⟩
  · exact getElem?_four (fun k _ => progEnc_getElem?_last hnr k) (by omega)
  · exact getElem?_four (fun k _ => progDec_getElem?_last hnr k) (by omega)

end Sys2Proof.Machine
end

section
/-! SUPPORT. The completion step of a command (43_cipher_driver.md R211). -/

namespace Sys2Proof.Machine

/-- A uop step is the meaning of the issued uop, then the move on (R207). -/
theorem uopStep_of_exec {s t : State} {u : UopWord} {i : Instr} (hfetch : fetchUop s = some u)
    (hdecode : decode (.uop u) = .ok i) (hexec : exec i s = .next t) : uopStep s = .next (advance t) := by
  simp only [uopStep, hfetch, hdecode, hexec, andThen]

theorem advance_of_last {s : State} (h : s.upc.toNat + 1 = (prog s.phase s.opNk.toNat s.opNr.toNat).length) :
    advance s = s.complete :=
  if_pos h

theorem State.complete_of_kexp {s : State} (h : s.phase = .kexp) :
    s.complete =
      { s with keyValid := true, kvar := kvarOfNk s.opNk, done := true, phase := .idle, upc := 0#6, stepsLeft := 0 } := by
  simp only [State.complete, h, if_true]

theorem State.complete_of_ne_kexp {s : State} (h : s.phase ≠ .kexp) :
    s.complete = { s with done := true, phase := .idle, upc := 0#6, stepsLeft := 0 } := by
  simp only [State.complete, h, if_false]

/-- In the last step of its latency the engine runs the last uop and no other (R281). -/
theorem engineStep_of_last {s : State} (hlast : s.upc.toNat + 1 = (prog s.phase s.opNk.toNat s.opNr.toNat).length)
    (h : s.stepsLeft ≤ 1) : engineStep s = uopStep s := by
  have hleft : uopsLeft s - 1 = 0 := by
    unfold uopsLeft
    omega
  rw [engineStep, if_pos h, hleft, uopSteps]

/-- Settles O34: the uop keeps the sequencer's control registers and the status, so the state it leaves still stands at the last
uop, and what follows is `complete`. -/
theorem completionStep : Obligations.CompletionStep := by
  intro s t u i hbusy hfetch hdecode hexec hlast
  obtain ⟨x, hx⟩ := uop_of_decode hdecode
  have hframe := uop_frame hx hexec
  have hphase : t.phase = s.phase := by rw [hframe]
  have hnk : t.opNk = s.opNk := by rw [hframe]
  have hadvance : advance t = t.complete := advance_of_last (by rw [hframe]; exact hlast)
  have hstep : uopStep s = .next t.complete := by rw [uopStep_of_exec hfetch hdecode hexec, hadvance]
  refine ⟨fun hkexp => ?_, fun hkexp => ?_, engineStep_of_last hlast, ?_, ?_, hnk, ?_⟩
  · rw [hstep, State.complete_of_kexp (hphase.trans hkexp), hnk, kvarOfNk]
  · rw [hstep, State.complete_of_ne_kexp (hphase ▸ hkexp)]
  all_goals rw [hframe]

end Sys2Proof.Machine
end

section
/-! SUPPORT. NOP, and every CMD write while BUSY (43_cipher_driver.md R201, R203). -/

namespace Sys2Proof.Machine

/-- NOP passes its checks in every state, so while IDLE it is always accepted (R203, R248). -/
theorem exec_nop_idle {s : State} (h : s.phase = .idle) :
    exec .nop s = .next ((s.setOvr false).setOutcome true .ok) :=
  commandRequest_accepted h rfl

/-- A CMD write while BUSY is an overrun, whatever the value (R201). -/
theorem writeCmd_busy {s : State} (v : Word) (h : s.phase ≠ .idle) : writeCmd v s = .next (s.setOvr true) := by
  rw [writeCmd_by_value]
  split_ifs <;> exact commandRequest_busy h

/-- STATUS after an accepted NOP: KVAR and KEY_VALID as before, DONE, and no other bit (R203, R41). -/
theorem statusWord_nop_toNat {s : State} (h : s.phase = .idle) :
    (statusWord ((s.setOvr false).setOutcome true .ok)).toNat = 256 * s.kvar.toNat + 4 + 2 * s.keyValid.toNat := by
  rw [statusWord_toNat, busy_toNat]
  simp [h, ErrCode.code]

/-- Settles O7: acceptance or overrun; in the example STATUS says that KVAR is 0 and KEY_VALID is 1. -/
theorem nopClearsTheFlags : Obligations.NopClearsTheFlags := by
  refine ⟨rfl, fun s => exec_nop_idle, fun s => writeCmd_busy 0#32, fun s hidle hstatus => ⟨_, exec_nop_idle hidle, ?_⟩⟩
  have hbefore : (statusWord s).toNat = 0x1E := by rw [hstatus]; rfl
  rw [statusWord_toNat] at hbefore
  have hovr := s.ovr.toNat_le
  have hdone := s.done.toNat_le
  have hkey := s.keyValid.toNat_le
  have hbusy : s.busy.toNat = 0 := by rw [busy_toNat, if_pos hidle]
  apply BitVec.eq_of_toNat_eq
  rw [statusWord_nop_toNat hidle, BitVec.toNat_ofNat]
  omega

/-- Settles O12: the write at CMD, the port that carries it, and each command as the write of its own word. -/
theorem overrunOnlySetsOvr : Obligations.OverrunOnlySetsOvr := by
  intro s v hbusy
  have hwrite (x : Word) : writeCmd x s = .next (s.setOvr true) := writeCmd_busy x hbusy
  refine ⟨hwrite v, ?_, hwrite 0#32, hwrite 1#32, hwrite 2#32, hwrite 3#32⟩
  rw [hostStep_write_mapped s v (r := .cmd) rfl, writeReg, hwrite v]
  rfl

end Sys2Proof.Machine
end

section
/-! SUPPORT. The block put into S and taken out of it (43_cipher_driver.md R209, R210). -/

namespace Sys2Proof.Machine

theorem blockOfSreg_getElem (x : SReg) (c : Fin 4) :
    (blockOfSreg x)[c] = wordOf (cell x 0 c) (cell x 1 c) (cell x 2 c) (cell x 3 c) := by
  simp [blockOfSreg]

/-- Settles O16: U_LOAD by cells; the example's cells are bytes of its words. -/
theorem loadCopiesDin : Obligations.LoadCopiesDin := by
  refine ⟨rfl, fun s => ⟨sregOfBlock s.din, rfl, cell_sregOfBlock s.din⟩, fun s hdin => ⟨sregOfBlock s.din, rfl, ?_⟩⟩
  simp only [cell_sregOfBlock, hdin]
  decide

/-- Settles O17: U_STORE by the words of DOUT; the programs of ENC and DEC end with it. -/
theorem storeCopiesToDout : Obligations.StoreCopiesToDout :=
  ⟨rfl, fun s => ⟨blockOfSreg s.sreg, rfl, blockOfSreg_getElem s.sreg⟩, fun _ =>
    ⟨List.getLast?_append_of_ne_nil _ (List.cons_ne_nil _ _), List.getLast?_append_of_ne_nil _ (List.cons_ne_nil _ _)⟩⟩

end Sys2Proof.Machine
end

section
/-! SUPPORT. Command errors: the checks that report each code, and that an error changes DONE, ERR and OVR only
(60_exceptions.md R242 to R245, R249). -/

namespace Sys2Proof.Machine

/-- Settles O15: of everything a CMD write can do, an overrun needs BUSY, and a command that starts clears ERR. -/
theorem commandErrorsArePrecise : Obligations.CommandErrorsArePrecise := by
  intro s t v hidle h herr
  obtain ⟨hbusy, -⟩ | ⟨-, -, hfailed⟩ | ⟨-, x, -, -, hstarted⟩ | ⟨-, -, -, x, p, -, -, hstarted⟩ := writeCmd_cases h
  · exact absurd hidle hbusy
  · exact hfailed
  · exact absurd (congrArg State.err hstarted) herr
  · exact absurd (congrArg State.err hstarted) herr

/-- KSIZE = 0b11 selects no variant, and that is checked first (R244, R248). -/
theorem validateKeyexp_badVariant {s : State} (h : s.ksize = 0b11#2) : validateKeyexp s = .badVariant := by
  simp [validateKeyexp, variantOf, h]

/-- A KEYLEN that is not the key length of the selected variant (R242). -/
theorem validateKeyexp_invalidKeyLength {s : State} {x : Variant} (hx : variantOf s.ksize = some x)
    (hlen : s.keylen.toNat ≠ 4 * x.nk) : validateKeyexp s = .invalidKeyLength := by
  simp [validateKeyexp, hx, hlen]

/-- The key lengths of R242, in bytes, are those of the variants the KSIZE codes select (R2, R104). -/
theorem exists_variant_of_keylen_ne {s : State}
    (h : s.ksize = 0b00#2 ∧ s.keylen.toNat ≠ 16 ∨ s.ksize = 0b01#2 ∧ s.keylen.toNat ≠ 24 ∨
      s.ksize = 0b10#2 ∧ s.keylen.toNat ≠ 32) :
    ∃ x, variantOf s.ksize = some x ∧ s.keylen.toNat ≠ 4 * x.nk := by
  obtain ⟨hk, hlen⟩ | ⟨hk, hlen⟩ | ⟨hk, hlen⟩ := h <;> rw [hk]
  · exact ⟨.aes128, rfl, hlen⟩
  · exact ⟨.aes192, rfl, hlen⟩
  · exact ⟨.aes256, rfl, hlen⟩

/-- Without a key BLKLEN is not looked at (R245, R248). -/
theorem validateBlock_noKey {s : State} (h : s.keyValid = false) : validateBlock s = .noKey := by
  simp [validateBlock, h]

theorem validateBlock_invalidBlockLength {s : State} (hkey : s.keyValid = true) (hlen : s.blklen.toNat ≠ 16) :
    validateBlock s = .invalidBlockLength := by
  simp [validateBlock, hkey, hlen]

section
variable {s : State} {c : ErrCode} (hidle : s.phase = .idle) (hc : c ≠ .ok)
include hidle hc

/-- A command error is the code its checks report, in DONE, ERR and OVR alone (R202). -/
theorem commandRequest_reports {v : Word} {run : State → Result} (hv : validate v s = c) :
    commandRequest v run s = .next ((s.setOvr false).setOutcome true c) := by
  subst hv
  exact commandRequest_failed hidle hc

theorem exec_keyexp_reports (h : validateKeyexp s = c) :
    exec .keyexp s = .next ((s.setOvr false).setOutcome true c) :=
  commandRequest_reports hidle hc (v := 1#32) h

/-- ENCRYPT and DECRYPT have the same checks (R205, R206). -/
theorem exec_encrypt_decrypt_report (h : validateBlock s = c) :
    exec .encrypt s = .next ((s.setOvr false).setOutcome true c) ∧
    exec .decrypt s = .next ((s.setOvr false).setOutcome true c) :=
  ⟨commandRequest_reports hidle hc (v := 2#32) h, commandRequest_reports hidle hc (v := 3#32) h⟩

end

/-- Settles O9: the check that fails, by KSIZE and KEYLEN; a KEYLEN of 15 is not the 16 of AES-128. -/
theorem keyexpErrors : Obligations.KeyexpErrors := by
  refine ⟨fun s hidle hk => ?_, fun s hidle h => ?_, fun s hidle hk h15 => ?_⟩
  · exact exec_keyexp_reports hidle (by decide) (validateKeyexp_badVariant hk)
  · obtain ⟨x, hx, hlen⟩ := exists_variant_of_keylen_ne h
    exact exec_keyexp_reports hidle (by decide) (validateKeyexp_invalidKeyLength hx hlen)
  · obtain ⟨x, hx, hlen⟩ := exists_variant_of_keylen_ne (.inl ⟨hk, by simp [h15]⟩)
    exact ⟨_, exec_keyexp_reports hidle (by decide) (validateKeyexp_invalidKeyLength hx hlen), rfl, rfl, hidle⟩

/-- Settles O11: the check that fails, by KEY_VALID and BLKLEN; a BLKLEN of 15 is one that is not 16. -/
theorem encryptDecryptErrors : Obligations.EncryptDecryptErrors := by
  refine ⟨fun s hidle hkey => ?_, fun s hidle hkey hlen => ?_, fun s hidle hkey h15 => ?_⟩
  · exact exec_encrypt_decrypt_report hidle (by decide) (validateBlock_noKey hkey)
  · exact exec_encrypt_decrypt_report hidle (by decide) (validateBlock_invalidBlockLength hkey hlen)
  · have hlen : s.blklen.toNat ≠ 16 := by simp [h15]
    obtain ⟨henc, -⟩ := exec_encrypt_decrypt_report hidle (by decide) (validateBlock_invalidBlockLength hkey hlen)
    exact ⟨_, henc, rfl⟩

end Sys2Proof.Machine
end

section
/-! SUPPORT. The values after reset (70_reset_and_hazards.md R271). -/

namespace Sys2Proof.Machine

/-- A bank of KEY words that holds one word everywhere reads as that word inside, and as 0 beyond its end. -/
theorem keyAt_replicate (v : Word) (i : Nat) : keyAt (Vector.replicate 8 v) i = if i < 8 then v else 0#32 := by
  rw [keyAt, Vector.getElem?_replicate]
  split <;> rfl

theorem keyAt_reset (i : Nat) : keyAt State.reset.key i = 0#32 :=
  (keyAt_replicate 0#32 i).trans (ite_self _)

/-- Settles O46: the two registers made of fields as closed words, KEY, DIN and DOUT as banks of zero words, and PHASE, UPC,
OP_NK and OP_NR as fields of the reset state. -/
theorem resetValues : Obligations.ResetValues := by
  have hctrl : ctrlWord State.reset = 0x00101000#32 := by decide
  have hstatus : statusWord State.reset = 0x00000000#32 := by decide
  have hblock : ∀ k : Fin 4, (Vector.replicate 4 0#32)[k] = 0#32 := fun k => Vector.getElem_replicate k.isLt
  exact ⟨hctrl, hstatus, keyAt_reset, hblock, hblock, rfl, rfl, rfl, rfl⟩

end Sys2Proof.Machine
end

section
/-! SUPPORT. The encoder writes back every word the decoder reads (30_encoding.md R101, R108, R115): a uop word is its three
fields, and each row of the table fixes them. -/

namespace Sys2Proof

/-- A uop word with bits 11:10 zero is put together from its IDX and its OPC (R107). -/
theorem uopWord_fields {u : UopWord} (h : uopTop u = 0#2) : uopWord (uopIdx u) (uopOpc u) = u := by
  have hhigh : uopTop u ++ uopIdx u = u.extractLsb' 4 8 := BitVec.extractLsb'_append_extractLsb'_eq_extractLsb' rfl
  have hall : u.extractLsb' 4 8 ++ uopOpc u = u.extractLsb' 0 12 :=
    BitVec.extractLsb'_append_extractLsb'_eq_extractLsb' rfl
  rw [uopWord, ← h, hhigh, hall, BitVec.extractLsb'_eq_self]

/-- A row without an index is read from the words with IDX 0 only (R108). -/
theorem plainUop_ok {idx : Idx} {i j : Instr} : plainUop idx i = .ok j ↔ idx = 0#6 ∧ i = j := by
  by_cases h : idx = 0#6 <;> simp [plainUop, h]

/-- A uop word is the encoding of the instruction it decodes to (R108, R115). -/
theorem encode_of_decodeUop {u : UopWord} {i : Instr} (h : decodeUop u = .ok i) : encode i = .uop u := by
  have htop : uopTop u = 0#2 := by
    by_contra hne
    rw [decodeUop, if_pos hne] at h
    cases h
  have hword (idx : Idx) (opc : BitVec 4) (hidx : uopIdx u = idx) (hopc : (uopOpc u).toNat = opc.toNat) :
      Encoded.uop (uopWord idx opc) = .uop u := by
    rw [← hidx, ← BitVec.eq_of_toNat_eq hopc, uopWord_fields htop]
  rw [decodeUop, if_neg (not_not.mpr htop)] at h
  -- a row with an index takes it from the word, a row without one requires IDX = 0, the last arm reads nothing
  split at h
  case h_5 hopc | h_10 hopc | h_11 hopc => cases h; exact hword _ _ rfl hopc
  case h_12 => cases h
  all_goals
    obtain ⟨hidx, rfl⟩ := plainUop_ok.mp h
    exact hword 0#6 _ hidx ‹_›

end Sys2Proof

namespace Sys2Proof.Machine

/-- Settles O3: the decoder reads back the encoder by constructor, and the encoder the decoder by the form of the word. -/
theorem decodeAndEncodeAgree : Obligations.DecodeAndEncodeAgree := by
  refine ⟨decode_encode, fun e i h => ?_⟩
  cases e with
  | cmd v => obtain ⟨rfl, rfl⟩ | ⟨rfl, rfl⟩ | ⟨rfl, rfl⟩ | ⟨rfl, rfl⟩ := (fourCommandWords v i).mp h <;> rfl
  | uop u => exact encode_of_decodeUop h

end Sys2Proof.Machine
end

section
/-! SUPPORT. Decryption undoes encryption (43_cipher_driver.md R213, R214): a round of InvCipher undoes the round of Cipher up
to the substitutions that stand between two round keys, so the two runs meet between the rounds. -/

namespace Sys2Proof.Machine

/-- A round of InvCipher, entered after the row shift and substitution of the next round, takes back the round of Cipher
and leaves the state before it shifted and substituted (R213). -/
theorem invCipherRound_cipherRound (w : KeyStore) (rnd : Nat) (x : SReg) :
    invCipherRound w (shiftRows (subBytes (cipherRound w x rnd))) rnd = shiftRows (subBytes x) := by
  rw [invCipherRound, invShiftRows_shiftRows, invSubBytes_subBytes, cipherRound, addRoundKey_addRoundKey,
    invMixColumns_mixColumns]

/-- The rounds of InvCipher in reverse order take back the rounds of Cipher. -/
theorem foldl_invCipherRound_reverse (w : KeyStore) (rounds : List Nat) (x : SReg) :
    rounds.reverse.foldl (invCipherRound w) (shiftRows (subBytes (rounds.foldl (cipherRound w) x))) =
      shiftRows (subBytes x) := by
  induction rounds generalizing x with
  | nil => rfl
  | cons rnd rounds ih =>
    simp only [List.reverse_cons, List.foldl_append, List.foldl_cons, List.foldl_nil, ih]
    exact invCipherRound_cipherRound w rnd x

/-- Settles O36: the first AddRoundKey of InvCipher takes back the last of Cipher, the rounds cancel from the inside out, and
what is left is undone by the last round of InvCipher. -/
theorem invCipherUndoesCipher : Obligations.InvCipherUndoesCipher := by
  intro p w nr
  rw [invCipher, invCipherState, cipher, sregOfBlock_blockOfSreg, cipherState, addRoundKey_addRoundKey,
    foldl_invCipherRound_reverse, invShiftRows_shiftRows, invSubBytes_subBytes, addRoundKey_addRoundKey,
    blockOfSreg_sregOfBlock]

end Sys2Proof.Machine
end

section
/-! SUPPORT. The laws of GF(2^8) and the tables made from it (40_constant_tables.md R130 to R137). -/

namespace Sys2Proof.Machine

/-- Settles O57: the laws on the left argument, turned by commutativity where the right one is meant. -/
theorem fieldLaws : Obligations.FieldLaws := by
  refine ⟨galoisMul_comm, galoisMul_assoc, galoisMul_xor_right, fun a => ⟨?_, galoisMul_one_left a⟩,
    fun a => ⟨?_, galoisMul_zero_left a⟩, fun b hb => ?_⟩
  · rw [galoisMul_comm, galoisMul_one_left]
  · rw [galoisMul_comm, galoisMul_zero_left]
  · obtain ⟨x, hx⟩ := exists_galoisMul_eq_one hb
    exact ⟨x, hx, fun y hy => eq_of_galoisMul_eq_one hy hx⟩

/-- `xtime` is doubling, reduced by the field polynomial where bit 7 is shifted out (R130). -/
theorem xtime_eq_double (b : Byte) :
    xtime b = if b.toNat < 128 then BitVec.ofNat 8 (2 * b.toNat) else BitVec.ofNat 8 (2 * b.toNat) ^^^ 0x1B#8 := by
  revert b
  decide

/-- Multiplication by 3 is multiplication by 2 and by 1 (R131). -/
theorem galoisMul_three_left (b : Byte) : galoisMul 0x03#8 b = xtime b ^^^ b := by
  calc galoisMul 0x03#8 b = galoisMul (0x02#8 ^^^ 0x01#8) b := rfl
    _ = xtime b ^^^ b := by rw [galoisMul_xor_left, galoisMul_two_left, galoisMul_one_left]

/-- Settles O59: `xtime` as doubling on every byte, the products by 2 and 3, and the printed values by evaluation. -/
theorem fieldExamples : Obligations.FieldExamples := by
  have hxtime : xtime 0x80#8 = 0x1B#8 ∧ xtime 0xFF#8 = 0xE5#8 ∧ xtime 0x8D#8 = 0x01#8 ∧ xtime 0x57#8 = 0xAE#8 := by decide
  have hmul : galoisMul 0xFF#8 0xFF#8 = 0x13#8 ∧ galoisMul 0x57#8 0x83#8 = 0xC1#8 ∧
      galoisMul 0x57#8 0x13#8 = 0xFE#8 := by decide
  obtain ⟨hx80, hxFF, hx8D, hx57⟩ := hxtime
  obtain ⟨hmFF, hm83, hm13⟩ := hmul
  exact ⟨xtime_eq_double, hx80, hxFF, hx8D, hx57, hmFF, hm83, hm13,
    fun b => ⟨galoisMul_two_left b, galoisMul_three_left b⟩, by decide⟩

/-- The inverse of the affine transform of R134. -/
def invAffine (y : Byte) : Byte := y.rotateLeft 1 ^^^ y.rotateLeft 3 ^^^ y.rotateLeft 6 ^^^ 0x05#8

theorem affine_invAffine (y : Byte) : affine (invAffine y) = y := by
  revert y
  decide

/-- What SBOX holds at a non-zero byte is the affine transform of an inverse of it (R135). -/
theorem galoisMul_invAffine_sbox {b : Byte} (hb : b ≠ 0x00#8) : galoisMul b (invAffine (sbox b)) = 0x01#8 := by
  revert b
  decide

/-- SBOX is the affine transform of the inverse (R135). -/
theorem sbox_eq_affine_ginv (b : Byte) : sbox b = affine (ginv b) := by
  by_cases hb : b = 0x00#8
  · rw [hb, ginv_zero]
    decide
  · rw [← eq_ginv (galoisMul_invAffine_sbox hb), affine_invAffine]

/-- SBOX has no fixed and no opposite fixed point (R135). -/
theorem sbox_ne_self (b : Byte) : sbox b ≠ b ∧ sbox b ≠ b ^^^ 0xFF#8 := by
  revert b
  decide

/-- Settles O60: SBOX from the inverse it is the affine transform of, INV_SBOX from the laws of the substitutions. -/
theorem sboxTables : Obligations.SboxTables :=
  ⟨sbox_eq_affine_ginv, invSbox_sbox, sbox_invSbox, sbox_ne_self, by decide⟩

end Sys2Proof.Machine
end

section
/-! SUPPORT. The words of the encoding tables (30_encoding.md R101, R108, R115). -/

namespace Sys2Proof

/-- Settles O1: an indexed word as a shift and a disjunction, and the words without an index by evaluation. -/
theorem uopWordIsIndexThenOpcode : Obligations.UopWordIsIndexThenOpcode := by
  have hword (idx : Idx) (opc : BitVec 4) :
      Encoded.uop (uopWord idx opc) = .uop ((idx.setWidth 12 <<< 4) ||| opc.setWidth 12) :=
    congrArg Encoded.uop (uopWord_eq_or idx opc)
  exact ⟨fun idx => ⟨hword idx 0x4#4, hword idx 0x9#4, hword idx 0xA#4⟩, by decide⟩

/-- Settles O2: each word is fixed, so the decoder is evaluated. -/
theorem specWordsDecode : Obligations.SpecWordsDecode := by
  unfold Obligations.SpecWordsDecode
  decide

end Sys2Proof
end

section
/-! SUPPORT. A CMD write while IDLE: a command that passes its checks starts (43_cipher_driver.md R200, R204 to R206), and
ERR is the code of the first check that fails (60_exceptions.md R248). -/

namespace Sys2Proof.Machine

/-- `start` with a code that selects a variant (R204 to R206). -/
theorem start_variant {p : Phase} {code : BitVec 2} {x : Variant} (s : State) (h : variantOf code = some x) :
    start p code s = .next ((s.setOutcome false .ok).launch p x) :=
  start_next.mpr ⟨x, h, rfl⟩

/-- Settles O8: the checks of R248 pass, and `start` takes the variant of KSIZE. -/
theorem keyexpStarts : Obligations.KeyexpStarts := by
  intro s x hidle hx hlen
  have hcheck : validateKeyexp s = .ok := validateKeyexp_ok.mpr ⟨x, hx, hlen⟩
  exact (commandRequest_accepted (v := 1#32) hidle hcheck).trans (start_variant _ hx)

/-- Settles O10: the checks are the same for both commands, and `start` takes the variant of KVAR. -/
theorem encryptDecryptStart : Obligations.EncryptDecryptStart := by
  intro s x hidle hkey hblk hx
  have hcheck : validateBlock s = .ok := validateBlock_ok.mpr ⟨hkey, by rw [hblk]; rfl⟩
  exact ⟨(commandRequest_accepted (v := 2#32) hidle hcheck).trans (start_variant _ hx),
    (commandRequest_accepted (v := 3#32) hidle hcheck).trans (start_variant _ hx)⟩

/-- An accepted CMD write reports its check in ERR, provided that what follows a passed check leaves ERR = 0. -/
theorem commandRequest_err {v : Word} {run : State → Result} {s : State} (hidle : s.phase = .idle)
    (hrun : validate v s = .ok → ∃ t, run (s.setOvr false) = .next t ∧ t.err = 0#4) :
    ∃ t, commandRequest v run s = .next t ∧ t.err = (validate v s).code := by
  by_cases hv : validate v s = .ok
  · rw [commandRequest_accepted hidle hv, hv]
    exact hrun hv
  · exact ⟨_, commandRequest_failed hidle hv, rfl⟩

/-- Every CMD write while IDLE answers a next state, with the code of the checks in ERR (R200, R248). -/
theorem writeCmd_err {s : State} (v : Word) (hidle : s.phase = .idle) (hkvar : ∃ x, variantOf s.kvar = some x) :
    ∃ t, writeCmd v s = .next t ∧ t.err = (validate v s).code := by
  obtain ⟨x, hx⟩ := hkvar
  obtain rfl | rfl | rfl | rfl | hv := cmdWord_cases v
  · exact ⟨_, exec_nop_idle hidle, rfl⟩
  · refine commandRequest_err (v := 1#32) hidle fun hcheck => ?_
    obtain ⟨y, hy, -⟩ := validateKeyexp_ok.mp hcheck
    exact ⟨_, start_variant _ hy, rfl⟩
  · exact commandRequest_err (v := 2#32) hidle fun _ => ⟨_, start_variant _ hx, rfl⟩
  · exact commandRequest_err (v := 3#32) hidle fun _ => ⟨_, start_variant _ hx, rfl⟩
  · rw [writeCmd_illegal s hv]
    refine commandRequest_err hidle fun hcheck => ?_
    rw [validate_illegal hv] at hcheck
    cases hcheck

/-- A KSIZE that selects a variant, with the key length of that variant (R2, R104, R242). -/
theorem exists_variant_of_keylen {s : State} (hk : s.ksize ≠ 0b11#2)
    (h : ¬(s.ksize = 0b00#2 ∧ s.keylen.toNat ≠ 16 ∨ s.ksize = 0b01#2 ∧ s.keylen.toNat ≠ 24 ∨
      s.ksize = 0b10#2 ∧ s.keylen.toNat ≠ 32)) :
    ∃ x, variantOf s.ksize = some x ∧ s.keylen.toNat = 4 * x.nk := by
  have hcodes : ∀ k : BitVec 2, k ≠ 0b11#2 → k = 0b00#2 ∨ k = 0b01#2 ∨ k = 0b10#2 := by decide
  obtain h0 | h1 | h2 := hcodes s.ksize hk
  · exact ⟨.aes128, by rw [h0]; rfl, by simpa [h0, Variant.nk] using h⟩
  · exact ⟨.aes192, by rw [h1]; rfl, by simpa [h1, Variant.nk] using h⟩
  · exact ⟨.aes256, by rw [h2]; rfl, by simpa [h2, Variant.nk] using h⟩

/-- The checks of KEYEXP as a code: KSIZE before KEYLEN (R242, R244, R248). -/
theorem validateKeyexp_code (s : State) :
    (validateKeyexp s).code =
      if s.ksize = 0b11#2 then 3#4
      else if s.ksize = 0b00#2 ∧ s.keylen.toNat ≠ 16 ∨ s.ksize = 0b01#2 ∧ s.keylen.toNat ≠ 24 ∨
        s.ksize = 0b10#2 ∧ s.keylen.toNat ≠ 32 then 1#4
      else 0#4 := by
  split_ifs with hk hlen
  · rw [validateKeyexp_badVariant hk]
    rfl
  · obtain ⟨x, hx, hne⟩ := exists_variant_of_keylen_ne hlen
    rw [validateKeyexp_invalidKeyLength hx hne]
    rfl
  · rw [validateKeyexp_ok.mpr (exists_variant_of_keylen hk hlen)]
    rfl

/-- The checks of ENCRYPT and DECRYPT as a code: KEY_VALID before BLKLEN (R243, R245, R248). -/
theorem validateBlock_code (s : State) :
    (validateBlock s).code = if s.keyValid = false then 4#4 else if s.blklen.toNat ≠ 16 then 2#4 else 0#4 := by
  unfold validateBlock
  split_ifs <;> rfl

/-- Settles O14: ERR is the code of `validate`, which is the printed order of checks for each of the five kinds of value. -/
theorem firstFailingCheckIsReported : Obligations.FirstFailingCheckIsReported := by
  rintro s v hidle ⟨-, hkvar⟩
  obtain ⟨t, ht, herr⟩ := writeCmd_err v hidle hkvar
  refine ⟨t, ht, herr.trans ?_⟩
  obtain rfl | rfl | rfl | rfl | hv := cmdWord_cases v
  · rfl
  · exact validateKeyexp_code s
  · exact validateBlock_code s
  · exact validateBlock_code s
  · rw [if_pos hv, validate_illegal hv]
    rfl

end Sys2Proof.Machine
end

section
/-! SUPPORT. The word generator and the key words it reads (42_key_expansion.md R184, R187, R189). -/

namespace Sys2Proof.Machine

/-- U_KGEN inside its range writes the generated word to W (R184, R109). -/
theorem exec_uKgen {s : State} {i : Idx} (h4 : 4 ≤ s.opNk.toNat) (hlow : s.opNk.toNat ≤ i.toNat)
    (hhigh : i.toNat ≤ 4 * s.opNr.toNat + 3) (h59 : i.toNat ≤ 59) :
    exec (.uKgen i) s = .next (s.setW i.toNat
      (kgenWord s.opNk.toNat i.toNat (wAt s.w (i.toNat - 1)) (wAt s.w (i.toNat - s.opNk.toNat)))) :=
  withIdx_next.mpr ⟨idxInRange_uKgen.mpr ⟨h4, hlow, hhigh, h59⟩, rfl⟩

/-- Settles O28: U_KGEN is one write of W, read back at the same and at another index. -/
theorem keyGenerateUop : Obligations.KeyGenerateUop := by
  refine ⟨fun i => decode_uop_or (opc := 0xA#4) rfl, fun s i h4 hlow hhigh h59 =>
    ⟨_, exec_uKgen h4 hlow hhigh h59, ?_, fun j hj => ?_⟩, fun s hnk hnr h0 h3 => ?_⟩
  · rw [wAt_setIfInBounds _ _ _ _ (by omega), if_pos rfl]
    rfl
  · rw [wAt_setIfInBounds _ _ _ _ (by omega), if_neg hj]
  · have hexec := exec_uKgen (s := s) (i := 4#6) (by simp [hnk]) (by simp [hnk]) (by simp [hnr]) (by decide)
    refine ⟨_, hexec, (wAt_setIfInBounds _ _ _ _ (by decide)).trans ?_⟩
    rw [hnk]
    change kgenWord 4 4 (wAt s.w 3) (wAt s.w 0) = 0xa0fafe17#32
    rw [h0, h3]
    decide

/-- The schedule reads KEY only below Nk (R187): a later word is made of earlier words. -/
theorem scheduleWords_congr {k k' : KeyRegs} {nk : Nat} (h : ∀ i, i < nk → keyAt k i = keyAt k' i) (n : Nat) :
    scheduleWords k nk n = scheduleWords k' nk n := by
  induction n with
  | zero => rfl
  | succ i ih =>
    simp only [scheduleWords, ih]
    by_cases hi : i < nk
    · rw [if_pos hi, if_pos hi, h i hi]
    · rw [if_neg hi, if_neg hi]

/-- Settles O30: KeyExpansion is the schedule function at the length of the schedule. -/
theorem scheduleReadsOnlyNkKeyWords : Obligations.ScheduleReadsOnlyNkKeyWords :=
  fun v _ _ h => scheduleWords_congr h (4 * v.nr + 4)

end Sys2Proof.Machine
end

section
/-! SUPPORT. The address map by register, and what a read or a write of each register does (20_memory.md R71, R75, R76). -/

namespace Sys2Proof.Machine

/-- The address map holds every register at its own offset (R71). -/
theorem regAt_offset (r : Reg) : regAt r.offset.toNat = some r := by
  cases r with
  | ctrl | cmd | status => rfl
  | key k | din k | dout k => revert k; decide

theorem offset_key (k : Fin 8) : (Reg.offset (.key k)).toNat = 0x10 + 4 * k.val := by revert k; decide

theorem offset_din (k : Fin 4) : (Reg.offset (.din k)).toNat = 0x30 + 4 * k.val := by revert k; decide

theorem offset_dout (k : Fin 4) : (Reg.offset (.dout k)).toNat = 0x40 + 4 * k.val := by revert k; decide

/-- A transaction that selects a register stands at its address (R71 to R73). -/
theorem addr_of_selectReg {s : State} {addr size : Nat} {r : Reg} (h : selectReg s addr size = some r) :
    addr = s.baseAddr + r.offset.toNat := by
  unfold selectReg at h
  split_ifs at h with _ hbelow
  have hoff := eq_offset_of_regAt h
  omega

/-- Settles O39: the address map both ways, and the offset of each register. -/
theorem addressMap : Obligations.AddressMap :=
  ⟨fun s r => (selectReg_base s _).trans (regAt_offset r), fun _ _ _ => addr_of_selectReg, rfl, rfl, rfl, offset_key,
    offset_din, offset_dout⟩

/-- The place of a register of a bank in the address map (R71). -/
theorem regAt_key (k : Fin 8) : regAt (0x10 + 4 * k.val) = some (.key k) := offset_key k ▸ regAt_offset (.key k)

theorem regAt_din (k : Fin 4) : regAt (0x30 + 4 * k.val) = some (.din k) := offset_din k ▸ regAt_offset (.din k)

theorem regAt_dout (k : Fin 4) : regAt (0x40 + 4 * k.val) = some (.dout k) := offset_dout k ▸ regAt_offset (.dout k)

/-- No read looks at KEY, W or S (R42, R53, R75). -/
theorem memRead_ignores_key_w_sreg (s : State) (k : KeyRegs) (w : KeyStore) (x : SReg) (addr size : Nat) :
    memRead { s with key := k, w := w, sreg := x } addr size = memRead s addr size := by
  have hselect : selectReg { s with key := k, w := w, sreg := x } addr size = selectReg s addr size := rfl
  rw [memRead, memRead, hselect]
  cases selectReg s addr size with
  | none => rfl
  | some r => cases r <;> rfl

/-- Settles O41: each read by the register that stands at its offset. -/
theorem readsReturnTheRegisters : Obligations.ReadsReturnTheRegisters := by
  refine ⟨memRead_ignores_key_w_sreg, fun s => ⟨hostStep_read_mapped s (r := .ctrl) rfl,
    hostStep_read_mapped s (r := .cmd) rfl, hostStep_read_mapped s (r := .status) rfl, fun k => ?_, fun k => ?_,
    fun k => ?_⟩⟩
  · rw [Nat.add_assoc]
    exact hostStep_read_mapped s (regAt_key k)
  · rw [Nat.add_assoc]
    exact hostStep_read_mapped s (regAt_din k)
  · rw [Nat.add_assoc]
    exact hostStep_read_mapped s (regAt_dout k)

/-- A write of a register other than CMD always goes on (R76). -/
theorem writeReg_staged {r : Reg} (v : Word) (s : State) (h : r ≠ .cmd) : writeReg r v s = .next (writeStaged r v s) := by
  cases r with
  | cmd => exact absurd rfl h
  | ctrl | status | key k | din k | dout k => rfl

/-- A word write at the offset of a register other than CMD stages the value and is answered OK (R76). -/
theorem hostStep_write_staged {k : Nat} {r : Reg} {s t : State} {v : Word} (h : regAt k = some r) (hr : r ≠ .cmd)
    (ht : writeStaged r v s = t) : hostStep (.write (s.baseAddr + k) 4 v) s = .next (t.setResp .okWrite) := by
  rw [hostStep_write_mapped s v h, writeReg_staged v s hr, ht]
  rfl

section
variable {s : State} (hidle : s.phase = .idle) (v : Word)
include hidle

theorem writeStaged_ctrl_idle : writeStaged .ctrl v s = s.writeCtrl v := by simp [writeStaged, State.busy, hidle]

theorem writeStaged_key_idle (k : Fin 8) : writeStaged (.key k) v s = s.writeKey k v := by
  simp [writeStaged, State.busy, hidle]

theorem writeStaged_din_idle (k : Fin 4) : writeStaged (.din k) v s = s.writeDin k v := by
  simp [writeStaged, State.busy, hidle]

end

/-- Settles O43: each write by the register that stands at its offset, while IDLE and while BUSY. -/
theorem writesStageTheOperands : Obligations.WritesStageTheOperands := by
  intro s v
  simp only [Nat.add_assoc]
  refine ⟨fun hidle => ⟨?_, fun k => ?_, fun k => ?_⟩, fun hbusy => ⟨?_, fun k => ?_, fun k => ?_⟩, ?_, fun k => ?_⟩
  · exact hostStep_write_staged (r := .ctrl) rfl nofun (writeStaged_ctrl_idle hidle v)
  · exact hostStep_write_staged (regAt_key k) nofun (writeStaged_key_idle hidle v k)
  · exact hostStep_write_staged (regAt_din k) nofun (writeStaged_din_idle hidle v k)
  · exact hostStep_write_staged (r := .ctrl) rfl nofun (writeStaged_busy _ v s hbusy)
  · exact hostStep_write_staged (regAt_key k) nofun (writeStaged_busy _ v s hbusy)
  · exact hostStep_write_staged (regAt_din k) nofun (writeStaged_busy _ v s hbusy)
  · exact hostStep_write_staged (r := .status) rfl nofun rfl
  · exact hostStep_write_staged (regAt_dout k) nofun rfl

/-- CTRL put together from the three fields of a value is that value without its reserved bits (R33, R76). -/
theorem ctrlWord_writeCtrl (s : State) (v : Word) : ctrlWord (s.writeCtrl v) = v &&& 0x00FFFF03#32 := by
  apply BitVec.eq_of_getLsbD_eq
  intro i hi
  simp only [ctrlWord, State.writeCtrl_blklen, State.writeCtrl_keylen, State.writeCtrl_ksize, BitVec.getLsbD_append,
    BitVec.getLsbD_extractLsb', BitVec.getLsbD_and]
  interval_cases i <;> simp

/-- A word read at `BASE_ADDR + k` by the register at offset k (R75). -/
theorem memRead_mapped {k : Nat} {r : Reg} (s : State) (h : regAt k = some r) :
    memRead s (s.baseAddr + k) 4 = .data (readReg r s) := by
  simp only [memRead, selectReg_base, h]

/-- Staging a value twice is staging it once (R77). -/
theorem writeStaged_twice (r : Reg) (v : Word) (s : State) :
    writeStaged r v ((writeStaged r v s).setResp .okWrite) = (writeStaged r v s).setResp .okWrite := by
  by_cases hidle : s.phase = .idle
  · cases r with
    | cmd | status | dout k => rfl
    | ctrl =>
      rw [writeStaged_ctrl_idle hidle]
      exact writeStaged_ctrl_idle (s := (s.writeCtrl v).setResp .okWrite) hidle v
    | key k =>
      rw [writeStaged_key_idle hidle]
      refine (writeStaged_key_idle (s := (s.writeKey k v).setResp .okWrite) hidle v k).trans ?_
      simp [State.writeKey, State.setResp]
    | din k =>
      rw [writeStaged_din_idle hidle]
      refine (writeStaged_din_idle (s := (s.writeDin k v).setResp .okWrite) hidle v k).trans ?_
      simp [State.writeDin, State.setResp]
  · rw [writeStaged_busy r v s hidle]
    exact writeStaged_busy r v (s.setResp .okWrite) hidle

/-- A write of a register other than CMD keeps PHASE and BASE_ADDR. -/
theorem writeStaged_baseAddr (r : Reg) (v : Word) (s : State) : (writeStaged r v s).baseAddr = s.baseAddr := by
  rw [writeStaged_frame]
  rfl

/-- A write that does not select CMD, made twice, does what it does made once (R77). -/
theorem memWrite_twice {s t : State} {addr size : Nat} {v : Word} (hcmd : selectReg s addr size ≠ some .cmd)
    (h : memWrite addr size v s = .next t) : memWrite addr size v t = .next t := by
  cases hr : selectReg s addr size with
  | none =>
    simp only [memWrite, hr] at h
    cases h
    exact hostStep_write_unselected v hr
  | some r =>
    have hne : r ≠ .cmd := fun heq => hcmd (heq ▸ hr)
    simp only [memWrite, hr, writeReg_staged v s hne, andThen] at h
    cases h
    have hselect : selectReg ((writeStaged r v s).setResp .okWrite) addr size = some r := by
      have hbase : ((writeStaged r v s).setResp .okWrite).baseAddr = s.baseAddr := writeStaged_baseAddr r v s
      rw [← hr, selectReg, selectReg, hbase]
    simp only [memWrite, hselect, writeReg_staged v _ hne, writeStaged_twice, andThen]
    rfl

/-- Settles O44: the read after a staged write returns what was staged, and the staged writes are idempotent. -/
theorem writeThenReadBack : Obligations.WriteThenReadBack := by
  refine ⟨fun s t v hidle h => ?_, fun s t v k hidle h => ?_, fun s t addr size v => memWrite_twice⟩
  · rw [hostStep_write_staged (r := .ctrl) rfl nofun (writeStaged_ctrl_idle hidle v)] at h
    cases h
    rw [memRead_mapped _ (r := .ctrl) rfl]
    exact congrArg BusResponse.data (ctrlWord_writeCtrl s v)
  · rw [Nat.add_assoc, hostStep_write_staged (regAt_din k) nofun (writeStaged_din_idle hidle v k)] at h
    cases h
    rw [Nat.add_assoc, memRead_mapped _ (regAt_din k)]
    simp [readReg]

/-- Settles O45: one round of the loop by the answer it reads. -/
theorem pollReadsUntilItMatches : Obligations.PollReadsUntilItMatches := by
  refine fun s addr gap mask value => ⟨fun d hd hne => ?_, fun d hd heq => ?_, fun herr => ?_⟩
  · have hagain : pollAgain mask value (memRead s addr 4) = true := by simpa [hd, pollAgain] using hne
    rw [hostStep, if_pos hagain, hd]
    rfl
  · have hends : ¬pollAgain mask value (memRead s addr 4) = true := by simpa [hd, pollAgain] using heq
    rw [hostStep, if_neg hends, hd]
    rfl
  · have hends : ¬pollAgain mask value (memRead s addr 4) = true := by simp [herr, pollAgain]
    rw [hostStep, if_neg hends, herr]
    rfl

end Sys2Proof.Machine
end

section
/-! SUPPORT. Reset (70_reset_and_hazards.md R270 to R272). -/

namespace Sys2Proof.Machine

/-- Settles O47: the reset input is the state after reset but for S, W and what the reset keeps. -/
theorem resetAbandonsTheCommand : Obligations.ResetAbandonsTheCommand := by
  obtain ⟨hctrl, hstatus, -⟩ := resetValues
  exact fun s => ⟨s.resetInput, rfl, hctrl, hstatus, rfl, rfl, rfl, rfl, rfl, rfl, rfl, rfl, rfl, rfl, rfl⟩

/-- The latencies of the state after reset are at least 1 (R11). -/
theorem one_le_reset_latency (p : Phase) (v : Variant) (hp : p ≠ .idle) : 1 ≤ State.reset.lat.steps p v := by
  cases p with
  | idle => exact absurd rfl hp
  | kexp | enc | dec => cases v <;> decide

/-- Settles O48: IDLE without a key, so the clauses about a running command and about W are empty. -/
theorem resetMeetsInv : Obligations.ResetMeetsInv := by
  have hlatency : LatencyLegal State.reset := ⟨one_le_reset_latency, fun hbusy => absurd rfl hbusy⟩
  have hseq : SequencerLegal State.reset := ⟨fun _ => rfl, fun hbusy => absurd rfl hbusy⟩
  have hkey : KeyPhaseLegal State.reset := ⟨nofun, fun h => h.elim nofun nofun⟩
  exact ⟨⟨⟨by decide, .aes128, rfl⟩, hlatency, hseq, hkey, nofun, nofun⟩, fun h => h.elim nofun nofun⟩

end Sys2Proof.Machine
end

section
/-! SUPPORT. A step by the agent that makes it (10_state.md R30), and the sequencer's uop and engine steps as equations
(43_cipher_driver.md R207, 70_reset_and_hazards.md R281). -/

namespace Sys2Proof.Machine

/-- With a host action due, a step is that action (R30). -/
theorem step_of_hostDue {s : State} {u : HostTurn} {rest : List HostTurn} (hturns : s.turns = u :: rest)
    (hdue : s.phase = .idle ∨ u.wait = 0) : step s = hostStep u.act (s.setTurns rest) := by
  have hcond : (s.busy && decide (0 < u.wait)) = false := by
    obtain hidle | hwait := hdue
    · simp [State.busy, hidle]
    · simp [hwait]
  simp [step, hturns, hcond]

/-- While BUSY with nothing pending a step is an engine step (R30). -/
theorem step_of_noTurns {s : State} (hbusy : s.phase ≠ .idle) (hturns : s.turns = []) : step s = engineStep s := by
  simp [step, hturns, State.busy, hbusy]

/-- While BUSY with a host action that still waits a step is an engine step (R30). -/
theorem step_of_waiting {s : State} {n : Nat} {a : HostAction} {rest : List HostTurn} (hbusy : s.phase ≠ .idle)
    (hturns : s.turns = ⟨n + 1, a⟩ :: rest) : step s = engineStep (s.setTurns (⟨n, a⟩ :: rest)) := by
  simp [step, hturns, State.busy, hbusy]

/-- An IDLE engine with nothing pending has no step (R207). -/
theorem step_of_quiescent {s : State} (hidle : s.phase = .idle) (hturns : s.turns = []) :
    step s = .refused .quiescent := by
  simp [step, hturns, State.busy, hidle]

/-- Settles O32: the due action is a write at the offset of CMD, and CMD runs what the word decodes to. -/
theorem commandWriteRunsTheCommand : Obligations.CommandWriteRunsTheCommand := by
  intro s n v i rest hturns hdue hdecode
  rw [step_of_hostDue hturns hdue]
  have hwrite := hostStep_write_mapped (s.setTurns rest) v (k := 0x04) (r := .cmd) rfl
  rw [writeReg, writeCmd_decoded hdecode] at hwrite
  exact hwrite

theorem uopStep_of_decode {s : State} {u : UopWord} {i : Instr} (hfetch : fetchUop s = some u)
    (hdecode : decode (.uop u) = .ok i) : uopStep s = andThen (exec i s) advance := by
  simp only [uopStep, hfetch, hdecode]

theorem engineStep_last {s : State} (h : s.stepsLeft ≤ 1) : engineStep s = uopSteps (uopsLeft s - 1) s := if_pos h

theorem engineStep_waits {s : State} (h : 1 < s.stepsLeft) (hleft : uopsLeft s = 1) : engineStep s = .next s.tick := by
  rw [engineStep, if_neg (by omega), if_pos hleft]

theorem engineStep_one {s : State} (h : 1 < s.stepsLeft) (hleft : uopsLeft s ≠ 1) :
    engineStep s = andThen (uopStep s) State.tick := by
  rw [engineStep, if_neg (by omega), if_neg hleft]

theorem advance_of_not_last {s : State} (h : s.upc.toNat + 1 ≠ (prog s.phase s.opNk.toNat s.opNr.toNat).length) :
    advance s = s.nextUop :=
  if_neg h

/-- A uop is issued inside the program only (R207). -/
theorem upc_lt_of_fetchUop {s : State} {u : UopWord} (h : fetchUop s = some u) :
    s.upc.toNat < (prog s.phase s.opNk.toNat s.opNr.toNat).length :=
  (List.getElem?_eq_some_iff.mp h).1

/-- Where as many engine steps are left as uops, an engine step is one uop (R207, R281). -/
theorem engineStep_of_one_each {s : State} {u : UopWord} {i : Instr} (hfetch : fetchUop s = some u)
    (hdecode : decode (.uop u) = .ok i) (hleft : uopsLeft s = s.stepsLeft) :
    engineStep s = andThen (exec i s) fun t =>
      if t.upc.toNat + 1 = (prog t.phase t.opNk.toNat t.opNr.toNat).length then t.complete else t.nextUop.tick := by
  have hplace := upc_lt_of_fetchUop hfetch
  have hone : engineStep s = if s.stepsLeft ≤ 1 then uopStep s else andThen (uopStep s) State.tick := by
    split_ifs with hsteps
    · exact engineStep_of_last (by unfold uopsLeft at hleft; omega) hsteps
    · exact engineStep_one (by omega) (by omega)
  rw [hone, uopStep_of_decode hfetch hdecode]
  cases hexec : exec i s with
  | fault r => cases r
  | refused r => simp [andThen]
  | next t =>
    obtain ⟨x, hx⟩ := uop_of_decode hdecode
    have hframe := uop_frame hx hexec
    have hlast : t.upc.toNat + 1 = (prog t.phase t.opNk.toNat t.opNr.toNat).length ↔ s.stepsLeft ≤ 1 := by
      rw [hframe]
      change s.upc.toNat + 1 = (prog s.phase s.opNk.toNat s.opNr.toNat).length ↔ _
      unfold uopsLeft at hleft
      omega
    simp only [andThen, hlast]
    split_ifs with hsteps
    · rw [advance_of_last (hlast.mpr hsteps)]
    · rw [advance_of_not_last (mt hlast.mp hsteps)]

/-- Settles O31: the uop step by the decoded uop, the step by its agent, the engine step by what is left of the latency. -/
theorem engineStepRunsTheIssuedUop : Obligations.EngineStepRunsTheIssuedUop :=
  ⟨fun _ _ _ hfetch hdecode => ⟨uopStep_of_decode hfetch hdecode, engineStep_of_one_each hfetch hdecode⟩,
    fun _ hbusy => ⟨step_of_noTurns hbusy, fun _ _ _ => step_of_waiting hbusy⟩,
    fun _ => ⟨engineStep_last, engineStep_waits, engineStep_one⟩, fun _ _ _ => ⟨rfl, thenDo_next⟩,
    fun _ => ⟨rfl, rfl⟩, fun _ => advance_of_last, fun _ => advance_of_not_last, fun _ => step_of_quiescent⟩

end Sys2Proof.Machine
end

section
/-! SUPPORT. Everything a step of the whole machine can do, by its agent and by what the host writes (10_state.md R30,
20_memory.md R76, 43_cipher_driver.md R200 to R206). -/

namespace Sys2Proof.Machine

/-- What a step of the host other than the reset input leaves: an overrun or a response while BUSY; while IDLE staged operands
or an outcome in DONE, ERR and OVR; or the start of a command. -/
inductive HostOutcome (s t : State) : Prop where
  | busy (hbusy : s.phase ≠ .idle) (ht : t = { s with ovr := t.ovr, resp := t.resp, turns := t.turns })
  | staged (hidle : s.phase = .idle)
      (ht : t = { s with
        ksize := t.ksize, keylen := t.keylen, blklen := t.blklen, key := t.key, din := t.din, resp := t.resp
        turns := t.turns })
  | reported (hidle : s.phase = .idle) (herr : t.err.toNat ≤ 5)
      (ht : t = { s with ovr := t.ovr, done := t.done, err := t.err, resp := t.resp, turns := t.turns })
  | keyexp (hidle : s.phase = .idle) (x : Variant)
      (ht : t = { s with
        ovr := false, done := false, err := 0#4, keyValid := false, opNk := BitVec.ofNat 4 x.nk
        opNr := BitVec.ofNat 4 x.nr, phase := .kexp, upc := 0#6, stepsLeft := s.lat.steps .kexp x
        resp := t.resp, turns := t.turns })
  | cipher (hidle : s.phase = .idle) (hkey : s.keyValid = true) (x : Variant) (p : Phase) (hp : p = .enc ∨ p = .dec)
      (hx : variantOf s.kvar = some x)
      (ht : t = { s with
        ovr := false, done := false, err := 0#4, opNk := BitVec.ofNat 4 x.nk, opNr := BitVec.ofNat 4 x.nr
        phase := p, upc := 0#6, stepsLeft := s.lat.steps p x, resp := t.resp, turns := t.turns })

/-- Everything a CMD write at the port can do, on a state with the action taken off the list (R200 to R206). -/
theorem hostOutcome_of_writeCmd {s u : State} {ts : List HostTurn} {v : Word}
    (h : writeCmd v (s.setTurns ts) = .next u) : HostOutcome s (u.setResp .okWrite) := by
  obtain ⟨hbusy, hu⟩ | ⟨hidle, herr, hu⟩ | ⟨hidle, x, -, -, hu⟩ | ⟨hidle, hkey, -, x, p, hp, hx, hu⟩ := writeCmd_cases h
  · exact .busy hbusy (by rw [hu]; rfl)
  · exact .reported hidle herr (by rw [hu]; rfl)
  · exact .keyexp hidle x (by rw [hu]; rfl)
  · exact .cipher hidle hkey x p hp hx (by rw [hu]; rfl)

/-- Everything a step of the host can do, on a state with the action taken off the list (R30). -/
theorem hostStep_outcome {a : HostAction} {s t : State} {ts : List HostTurn} (h : hostStep a (s.setTurns ts) = .next t) :
    (a = .reset ∧ t = (s.setTurns ts).resetInput) ∨ (a ≠ .reset ∧ HostOutcome s t) := by
  obtain hreset | ⟨addr, size, v, u, rfl, -, hu, rfl⟩ | ⟨ha, ht, htbusy⟩ := hostStep_cases h
  · exact .inl hreset
  · exact .inr ⟨nofun, hostOutcome_of_writeCmd hu⟩
  · refine .inr ⟨ha, ?_⟩
    by_cases hidle : s.phase = .idle
    · exact .staged hidle ht
    · exact .busy hidle (by rw [htbusy hidle]; rfl)

/-- Everything a step can do: an engine step, the reset input, or another step of the host (R30). -/
theorem step_outcome {s t : State} (h : step s = .next t) :
    ByEngine s t ∨ ByReset s t ∨ (¬EngineDue s ∧ HostOutcome s t) := by
  obtain hengine | ⟨n, a, rest, hturns, hdue, hhost⟩ := step_split h
  · exact .inl hengine
  · obtain ⟨rfl, ht⟩ | ⟨-, hout⟩ := hostStep_outcome hhost
    · exact .inr (.inl ⟨n, rest, hturns, hdue, ht⟩)
    · refine .inr (.inr ⟨fun ⟨hbusy, hwait⟩ => ?_, hout⟩)
      have hpos : 0 < n := hwait _ _ hturns
      obtain hidle | hzero := hdue
      · exact hbusy hidle
      · omega

end Sys2Proof.Machine
end

section
/-! SUPPORT. The words of a micro-program against its operations (43_cipher_driver.md R208), and the one place of the store. -/

namespace Sys2Proof.Machine

/-- No command stands in a micro-program (R208). -/
theorem command_not_mem_progInstrs {p : Phase} {nk nr : Nat} {i : Instr}
    (hi : i = .nop ∨ i = .keyexp ∨ i = .encrypt ∨ i = .decrypt) : i ∉ progInstrs p nk nr := by
  cases p with
  | idle => exact List.not_mem_nil
  | kexp => obtain rfl | rfl | rfl | rfl := hi <;> simp [progInstrs, progKexp]
  | enc => obtain rfl | rfl | rfl | rfl := hi <;> simp [progInstrs, progEnc, encRound]
  | dec => obtain rfl | rfl | rfl | rfl := hi <;> simp [progInstrs, progDec, decRound]

/-- Every operation of a micro-program has a uop word (R208). -/
theorem exists_encode_of_mem_progInstrs {p : Phase} {nk nr : Nat} {i : Instr} (h : i ∈ progInstrs p nk nr) :
    ∃ u, encode i = .uop u := by
  cases i with
  | nop | keyexp | encrypt | decrypt => exact absurd h (command_not_mem_progInstrs (by simp))
  | uLoad | uSb | uSr | uMc | uArk rnd | uIsb | uIsr | uImc | uStore | uKload x | uKgen x => exact ⟨_, rfl⟩

/-- A list of operations that all have a uop word, as words. -/
theorem filterMap_uopWordOf {is : List Instr} (h : ∀ i ∈ is, ∃ u, encode i = .uop u) :
    (is.filterMap uopWordOf).map Encoded.uop = is.map encode := by
  induction is with
  | nil => rfl
  | cons i is ih =>
    obtain ⟨u, hu⟩ := h i List.mem_cons_self
    rw [List.filterMap_cons_some (uopWordOf_eq_some.mpr hu), List.map_cons, List.map_cons, hu,
      ih fun j hj => h j (List.mem_cons_of_mem i hj)]

/-- The words of a micro-program are the encodings of its operations, place by place (R208, R115). -/
theorem map_uop_prog (p : Phase) (nk nr : Nat) : (prog p nk nr).map Encoded.uop = (progInstrs p nk nr).map encode :=
  filterMap_uopWordOf fun _ => exists_encode_of_mem_progInstrs

theorem prog_length (p : Phase) (nk nr : Nat) : (prog p nk nr).length = (progInstrs p nk nr).length := by
  simpa using congrArg List.length (map_uop_prog p nk nr)

/-- The word at a place of a program decodes to the operation at that place (R207, R208). -/
theorem prog_getElem?_of_progInstrs {p : Phase} {nk nr k : Nat} {i : Instr} (h : (progInstrs p nk nr)[k]? = some i) :
    ∃ u, (prog p nk nr)[k]? = some u ∧ decode (.uop u) = .ok i := by
  have hword : ((prog p nk nr).map Encoded.uop)[k]? = some (encode i) := by
    rw [map_uop_prog, List.getElem?_map, h, Option.map_some]
  rw [List.getElem?_map, Option.map_eq_some_iff] at hword
  obtain ⟨u, hu, henc⟩ := hword
  exact ⟨u, hu, henc ▸ decode_encode i⟩

/-- The issued word is that of the operation at UPC (R207, R208). -/
theorem progInstrs_getElem?_of_fetchUop {s : State} {u : UopWord} {i : Instr} (hfetch : fetchUop s = some u)
    (hdecode : decode (.uop u) = .ok i) : (progInstrs s.phase s.opNk.toNat s.opNr.toNat)[s.upc.toNat]? = some i := by
  obtain ⟨j, hj⟩ : ∃ j, (progInstrs s.phase s.opNk.toNat s.opNr.toNat)[s.upc.toNat]? = some j :=
    ⟨_, List.getElem?_eq_getElem (prog_length _ _ _ ▸ upc_lt_of_fetchUop hfetch)⟩
  obtain ⟨u', hu', hd⟩ := prog_getElem?_of_progInstrs hj
  cases Option.some.inj (hu'.symm.trans hfetch)
  rw [hj, Except.ok.inj (hd.symm.trans hdecode)]

/-- An item that stands at the end of a list and not before it has one place there. -/
theorem succ_eq_length_of_getElem?_append {α : Type} {l : List α} {a : α} {k : Nat} (hmem : a ∉ l)
    (h : (l ++ [a])[k]? = some a) : k + 1 = (l ++ [a]).length := by
  obtain ⟨hk, hget⟩ := List.getElem?_eq_some_iff.mp h
  rw [List.length_append, List.length_singleton] at hk ⊢
  by_contra hne
  have hlt : k < l.length := by omega
  rw [List.getElem_append_left hlt] at hget
  exact hmem (hget ▸ List.getElem_mem hlt)

/-- U_STORE is the last operation of an ENC or DEC program and stands nowhere else (R208, R210). -/
theorem uStore_is_last {p : Phase} {nk nr k : Nat} (h : (progInstrs p nk nr)[k]? = some .uStore) :
    (p = .enc ∨ p = .dec) ∧ k + 1 = (progInstrs p nk nr).length := by
  cases p with
  | idle => cases h
  | kexp =>
    have hmem := List.mem_of_getElem? h
    simp [progInstrs, progKexp] at hmem
  | enc =>
    have hsplit : progInstrs .enc nk nr = ([.uLoad, .uArk 0#6] ++ (List.range (nr - 1)).flatMap (fun j => encRound (j + 1))
        ++ [.uSb, .uSr, .uArk (BitVec.ofNat 6 nr)]) ++ [.uStore] := by
      simp [progInstrs, progEnc]
    rw [hsplit] at h ⊢
    exact ⟨.inl rfl, succ_eq_length_of_getElem?_append (by simp [encRound]) h⟩
  | dec =>
    have hsplit : progInstrs .dec nk nr = ([.uLoad, .uArk (BitVec.ofNat 6 nr)] ++
        (List.range (nr - 1)).flatMap (fun j => decRound (nr - 1 - j)) ++ [.uIsr, .uIsb, .uArk 0#6]) ++ [.uStore] := by
      simp [progInstrs, progDec]
    rw [hsplit] at h ⊢
    exact ⟨.inr rfl, succ_eq_length_of_getElem?_append (by simp [decRound]) h⟩

end Sys2Proof.Machine
end

section
/-! SUPPORT. What the engine's steps can do in any state (43_cipher_driver.md R207, R211): go on in the program, with S, W and
the sequencer's place changed, or complete. -/

namespace Sys2Proof.Machine

/-- DOUT after a uop: as before, or the block in S after a U_STORE (R210). -/
theorem exec_dout {i : Instr} {u : UopWord} {s t : State} (hi : encode i = .uop u) (h : exec i s = .next t) :
    t.dout = s.dout ∨ (i = .uStore ∧ t.dout = blockOfSreg t.sreg) := by
  cases i with
  | nop | keyexp | encrypt | decrypt => cases hi
  | uLoad | uSb | uSr | uMc | uIsb | uIsr | uImc => cases h; exact .inl rfl
  | uStore => cases h; exact .inr ⟨rfl, rfl⟩
  | uArk x | uKload x | uKgen x => obtain ⟨-, rfl⟩ := withIdx_next.mp h; exact .inl rfl

/-- The running command goes on: the data in progress and the sequencer's place are all that changed. -/
def GoesOn (s t : State) : Prop :=
  s.phase ≠ .idle ∧ t = { s with sreg := t.sreg, w := t.w, upc := t.upc, stepsLeft := t.stepsLeft }

/-- The running command completed; DOUT is as before, or the block in S if the command was ENCRYPT or DECRYPT. -/
def Completed (s t : State) : Prop :=
  s.phase ≠ .idle ∧ ∃ x w d, t = ({ s with sreg := x, w := w, dout := d } : State).complete ∧
    (d = s.dout ∨ ((s.phase = .enc ∨ s.phase = .dec) ∧ d = blockOfSreg x))

theorem GoesOn.phase_ne_idle {s t : State} (h : GoesOn s t) : t.phase ≠ .idle := by
  obtain ⟨hbusy, ht⟩ := h
  rw [ht]
  exact hbusy

theorem GoesOn.trans {s t u : State} (h : GoesOn s t) (h' : GoesOn t u) : GoesOn s u := by
  obtain ⟨hbusy, ht⟩ := h
  obtain ⟨-, hu⟩ := h'
  refine ⟨hbusy, ?_⟩
  rw [ht] at hu
  exact hu

theorem GoesOn.trans_completed {s t u : State} (h : GoesOn s t) (h' : Completed t u) : Completed s u := by
  obtain ⟨hbusy, ht⟩ := h
  obtain ⟨-, x, w, d, hu, hd⟩ := h'
  rw [ht] at hu hd
  exact ⟨hbusy, x, w, d, hu, hd⟩

/-- An IDLE engine has no program, so it issues nothing (R207). -/
theorem phase_ne_idle_of_fetchUop {s : State} {u : UopWord} (h : fetchUop s = some u) : s.phase ≠ .idle := by
  intro hidle
  have hlt := upc_lt_of_fetchUop h
  rw [hidle] at hlt
  exact Nat.not_lt_zero _ hlt

theorem uopStep_outcome {s t : State} (h : uopStep s = .next t) : GoesOn s t ∨ Completed s t := by
  obtain ⟨u, i, v, hfetch, hdecode, hexec, hframe, hnext⟩ := uopStep_cases h
  have hbusy := phase_ne_idle_of_fetchUop hfetch
  obtain ⟨x, hx⟩ := uop_of_decode hdecode
  have hplace := progInstrs_getElem?_of_fetchUop hfetch hdecode
  obtain ⟨-, rfl⟩ | ⟨hlast, rfl⟩ := hnext
  · refine .inr ⟨hbusy, v.sreg, v.w, v.dout, by rw [← hframe], ?_⟩
    obtain hsame | ⟨rfl, hstore⟩ := exec_dout hx hexec
    · exact .inl hsame
    · exact .inr ⟨(uStore_is_last hplace).1, hstore⟩
  · refine .inl ⟨hbusy, ?_⟩
    have hdout : v.dout = s.dout := by
      obtain hsame | ⟨rfl, -⟩ := exec_dout hx hexec
      · exact hsame
      · exact absurd ((uStore_is_last hplace).2.trans (prog_length _ _ _).symm) hlast
    rw [hframe, hdout]
    rfl

/-- Between the uops of one engine step the command has not completed: an IDLE engine issues nothing. -/
theorem uopSteps_outcome {n : Nat} {s t : State} (h : uopSteps n s = .next t) : GoesOn s t ∨ Completed s t := by
  induction n generalizing s with
  | zero => exact uopStep_outcome h
  | succ n ih =>
    obtain ⟨u, hu, ht⟩ := thenDo_next.mp h
    obtain hgoes | ⟨-, x, w, d, rfl, -⟩ := uopStep_outcome hu
    · exact (ih ht).imp hgoes.trans hgoes.trans_completed
    · obtain ⟨hbusy, -⟩ | ⟨hbusy, -⟩ := ih ht <;> exact absurd rfl hbusy

/-- Everything an engine step can do while BUSY (R207, R281). -/
theorem engineStep_outcome {s t : State} (hbusy : s.phase ≠ .idle) (h : engineStep s = .next t) :
    GoesOn s t ∨ Completed s t := by
  obtain ⟨-, he⟩ | ⟨-, -, he⟩ | ⟨-, -, he⟩ := engineStep_cases s <;> rw [he] at h
  · exact uopSteps_outcome h
  · cases h
    exact .inl ⟨hbusy, rfl⟩
  · obtain ⟨u, hu, rfl⟩ := andThen_next.mp h
    refine (uopStep_outcome hu).imp (fun hgoes => hgoes.trans ⟨hgoes.phase_ne_idle, rfl⟩) fun hdone => ?_
    obtain ⟨-, x, w, d, rfl, hd⟩ := hdone
    exact ⟨hbusy, x, w, d, rfl, hd⟩

/-- Everything an engine step of the whole machine can do, on a state with the pending actions it leaves (R30). -/
theorem byEngine_outcome {s t : State} (h : ByEngine s t) :
    ∃ ts, GoesOn (s.setTurns ts) t ∨ Completed (s.setTurns ts) t := by
  obtain ⟨⟨hbusy, -⟩, ts, hstep⟩ := h
  exact ⟨ts, engineStep_outcome (s := s.setTurns ts) hbusy hstep⟩

/-- Settles O52: KEY_VALID and KVAR by the kind of the step; of a completion, by the program that ran. -/
theorem keyValidAndKvarWriters : Obligations.KeyValidAndKvarWriters := by
  intro s t h
  obtain hengine | hreset | ⟨-, hhost⟩ := step_outcome h
  · obtain ⟨ts, ⟨-, ht⟩ | ⟨-, x, w, d, rfl, -⟩⟩ := byEngine_outcome hengine
    · rw [ht]
      exact .inr (.inl ⟨rfl, rfl⟩)
    · by_cases hkexp : s.phase = .kexp
      · exact .inr (.inr (.inl ⟨hengine, hkexp, rfl, if_pos hkexp, if_pos hkexp⟩))
      · exact .inr (.inl ⟨if_neg hkexp, if_neg hkexp⟩)
  · obtain ⟨n, rest, -, -, ht⟩ := id hreset
    refine .inl ⟨hreset, ?_⟩
    rw [ht]
    exact ⟨rfl, rfl⟩
  · cases hhost with
    | busy _ ht | staged _ ht | reported _ _ ht | cipher _ _ _ _ _ _ ht => rw [ht]; exact .inr (.inl ⟨rfl, rfl⟩)
    | keyexp hidle x ht => rw [ht]; exact .inr (.inr (.inr ⟨hidle, rfl, rfl, rfl⟩))

/-- A step of the host other than the reset input keeps DOUT. -/
theorem HostOutcome.dout_eq {s t : State} (h : HostOutcome s t) : t.dout = s.dout := by
  cases h with
  | busy _ ht | staged _ ht | reported _ _ ht | keyexp _ _ ht | cipher _ _ _ _ _ _ ht => rw [ht]

/-- Settles O54: only a completion and the reset input can change DOUT, and a completion only to the block in S. -/
theorem doutChangesOnlyAtCompletion : Obligations.DoutChangesOnlyAtCompletion := by
  intro s t h hne
  obtain hengine | hreset | ⟨-, hhost⟩ := step_outcome h
  · obtain ⟨ts, ⟨-, ht⟩ | ⟨-, x, w, d, rfl, hd⟩⟩ := byEngine_outcome hengine
    · exact absurd (by rw [ht]; rfl) hne
    · obtain ⟨hphase, hstore⟩ := hd.resolve_left hne
      exact .inl ⟨hengine, hphase, rfl, rfl, hstore⟩
  · obtain ⟨n, rest, -, -, ht⟩ := id hreset
    refine .inr ⟨hreset, fun k => ?_⟩
    rw [ht]
    exact Vector.getElem_replicate k.isLt
  · exact absurd hhost.dout_eq hne

/-- Settles O55: an engine step keeps the operands by its frame, and a busy engine takes nothing from the host but a reset. -/
theorem operandsFrozenWhileBusy : Obligations.OperandsFrozenWhileBusy := by
  intro s t hbusy h
  obtain ⟨-, ts, hengine⟩ | hreset | ⟨-, hhost⟩ := step_outcome h
  · rw [engineStep_frame hengine]
    exact .inl ⟨rfl, rfl, rfl, rfl, rfl, rfl, rfl⟩
  · exact .inr hreset
  · cases hhost with
    | busy _ ht => rw [ht]; exact .inl ⟨rfl, rfl, rfl, rfl, rfl, rfl, rfl⟩
    | staged hidle _ | reported hidle _ _ | keyexp hidle _ _ | cipher hidle _ _ _ _ _ _ => exact absurd hidle hbusy

end Sys2Proof.Machine
end

section
/-! SUPPORT. One uop as a function on the data registers: S, W and DOUT (41_round_transforms.md R150 to R157,
42_key_expansion.md R183, R184, 43_cipher_driver.md R209, R210). -/

namespace Sys2Proof.Machine

/-- W after a uop: U_KLOAD and U_KGEN write one word of it (R183, R184). -/
def scheduleUop (key : KeyRegs) (nk : Nat) (w : KeyStore) : Instr → KeyStore
  | .uKload i => w.setIfInBounds i.toNat (keyAt key i.toNat)
  | .uKgen i => w.setIfInBounds i.toNat (kgenWord nk i.toNat (wAt w (i.toNat - 1)) (wAt w (i.toNat - nk)))
  | _ => w

/-- DOUT after a uop: U_STORE writes it (R210). -/
def storeUop (sreg : SReg) (dout : Block) : Instr → Block
  | .uStore => blockOfSreg sreg
  | _ => dout

/-- The state after a uop whose index is in range. -/
def issueUop (s : State) (i : Instr) : State :=
  { s with
    sreg := datapathUop s.din s.w s.sreg i, w := scheduleUop s.key s.opNk.toNat s.w i, dout := storeUop s.sreg s.dout i }

/-- The meaning of a micro-operation: refused outside its range, else its effect on the data registers (R109, R150). -/
theorem exec_uop {i : Instr} {u : UopWord} (s : State) (h : encode i = .uop u) :
    exec i s = withIdx i s (issueUop s i) := by
  cases i with
  | nop | keyexp | encrypt | decrypt => cases h
  | uLoad | uSb | uSr | uMc | uArk x | uIsb | uIsr | uImc | uStore | uKload x | uKgen x => rfl

theorem exec_uop_inRange {i : Instr} {u : UopWord} {s : State} (h : encode i = .uop u)
    (hrange : idxInRange s.opNk.toNat s.opNr.toNat i = true) : exec i s = .next (issueUop s i) :=
  (exec_uop s h).trans (withIdx_next.mpr ⟨hrange, rfl⟩)

end Sys2Proof.Machine
end

section
/-! SUPPORT. Two states with the same control (00_scope.md R9, 70_reset_and_hazards.md R281): they differ in data alone, and
each operation of a step, run on both, stops alike or keeps them so. -/

namespace Sys2Proof.Machine

/-- The registers `SameControl` does not compare: KEY, DIN, DOUT, S, W and the last response. -/
structure DataRegs where
  key : KeyRegs
  din : Block
  dout : Block
  sreg : SReg
  w : KeyStore
  resp : BusResponse

/-- A state with other data. -/
def State.withData (s : State) (d : DataRegs) : State :=
  { s with key := d.key, din := d.din, dout := d.dout, sreg := d.sreg, w := d.w, resp := d.resp }

theorem sameControl_withData (s : State) (d : DataRegs) : SameControl s (s.withData d) :=
  ⟨rfl, rfl, rfl, rfl, rfl, rfl, rfl, rfl, rfl, rfl, rfl, rfl, rfl, rfl, rfl, rfl, rfl⟩

/-- Two states with the same control are one state with two sets of data. -/
theorem exists_withData_of_sameControl {s t : State} (h : SameControl s t) : ∃ d, t = s.withData d := by
  obtain ⟨h1, h2, h3, h4, h5, h6, h7, h8, h9, h10, h11, h12, h13, h14, h15, h16, h17⟩ := h
  refine ⟨⟨t.key, t.din, t.dout, t.sreg, t.w, t.resp⟩, ?_⟩
  rw [State.withData, h1, h2, h3, h4, h5, h6, h7, h8, h9, h10, h11, h12, h13, h14, h15, h16, h17]

/-- An operation on the state whose control does not depend on data. -/
def KeepsSameControl (f : State → State) : Prop := ∀ s d, SameControl (f s) (f (s.withData d))

/-- An operation with an outcome whose control and whose stops do not depend on data. -/
def ControlOnly (f : State → Result) : Prop := ∀ s d, SameControlResult (f s) (f (s.withData d))

/-- Two outcomes are alike if they are the same stop, or next states with the same control. -/
theorem sameControlResult_cases {a b : Result} (h : SameControlResult a b) :
    (∃ s d, a = .next s ∧ b = .next (s.withData d)) ∨ ∃ r, a = .refused r ∧ b = .refused r := by
  match a, b with
  | .next s, .next t =>
    obtain ⟨d, rfl⟩ := exists_withData_of_sameControl h
    exact .inl ⟨s, d, rfl, rfl⟩
  | .refused p, .refused q => exact .inr ⟨p, rfl, congrArg _ (Eq.symm h)⟩
  | .next s, .refused q => exact h.elim
  | .refused p, .next t => exact h.elim

theorem SameControlResult.andThen {a b : Result} {f : State → State} (h : SameControlResult a b)
    (hf : KeepsSameControl f) : SameControlResult (andThen a f) (andThen b f) := by
  obtain ⟨s, d, rfl, rfl⟩ | ⟨r, rfl, rfl⟩ := sameControlResult_cases h
  · exact hf s d
  · rfl

theorem SameControlResult.thenDo {a b : Result} {f : State → Result} (h : SameControlResult a b) (hf : ControlOnly f) :
    SameControlResult (thenDo a f) (thenDo b f) := by
  obtain ⟨s, d, rfl, rfl⟩ | ⟨r, rfl, rfl⟩ := sameControlResult_cases h
  · exact hf s d
  · rfl

/-! The commands: the checks and the start read CTRL, KEY_VALID and KVAR only (R200, R248). -/

theorem commandRequest_controlOnly {v : Word} {run : State → Result} (hrun : ControlOnly run) :
    ControlOnly (commandRequest v run) := by
  intro s d
  by_cases hidle : s.phase = .idle
  · by_cases hv : validate v s = .ok
    · rw [commandRequest_accepted hidle hv, commandRequest_accepted (s := s.withData d) hidle hv]
      exact hrun (s.setOvr false) d
    · rw [commandRequest_failed hidle hv, commandRequest_failed (s := s.withData d) hidle hv]
      exact sameControl_withData _ d
  · rw [commandRequest_busy hidle, commandRequest_busy (s := s.withData d) hidle]
    exact sameControl_withData _ d

/-- Starting a variant writes the same control whatever the data. -/
theorem start_sameControl (p : Phase) (code : BitVec 2) (s : State) (d : DataRegs) :
    SameControlResult (start p code s) (start p code (s.withData d)) := by
  unfold start
  cases variantOf code with
  | none => rfl
  | some x => exact sameControl_withData _ d

theorem writeCmd_controlOnly (v : Word) : ControlOnly (writeCmd v) := by
  obtain rfl | rfl | rfl | rfl | hv := cmdWord_cases v
  · exact commandRequest_controlOnly (v := 0#32) fun s => sameControl_withData (s.setOutcome true .ok)
  · exact commandRequest_controlOnly (v := 1#32) fun s => start_sameControl .kexp s.ksize (s.setKeyValid false)
  · exact commandRequest_controlOnly (v := 2#32) fun s => start_sameControl .enc s.kvar s
  · exact commandRequest_controlOnly (v := 3#32) fun s => start_sameControl .dec s.kvar s
  · intro s d
    rw [writeCmd_illegal s hv, writeCmd_illegal _ hv]
    exact commandRequest_controlOnly (run := fun t => .next (t.fail .illegalCmd))
      (fun s => sameControl_withData (s.fail .illegalCmd)) s d

/-! The port: the register a transaction selects, and what a write of it does to the control (R71, R76). -/

theorem writeStaged_keepsSameControl (r : Reg) (v : Word) : KeepsSameControl (writeStaged r v) := by
  intro s d
  by_cases hidle : s.phase = .idle
  · cases r with
    | cmd | status | dout k => exact sameControl_withData s d
    | ctrl =>
      rw [writeStaged_ctrl_idle hidle, writeStaged_ctrl_idle (s := s.withData d) hidle]
      exact sameControl_withData (s.writeCtrl v) d
    | key k =>
      rw [writeStaged_key_idle hidle, writeStaged_key_idle (s := s.withData d) hidle]
      exact sameControl_withData s d
    | din k =>
      rw [writeStaged_din_idle hidle, writeStaged_din_idle (s := s.withData d) hidle]
      exact sameControl_withData s d
  · rw [writeStaged_busy r v s hidle, writeStaged_busy r v (s.withData d) hidle]
    exact sameControl_withData s d

theorem writeReg_controlOnly (r : Reg) (v : Word) : ControlOnly (writeReg r v) := by
  intro s d
  by_cases hr : r = .cmd
  · subst hr
    exact writeCmd_controlOnly v s d
  · rw [writeReg_staged v s hr, writeReg_staged v _ hr]
    exact writeStaged_keepsSameControl r v s d

theorem setResp_keepsSameControl (r : BusResponse) : KeepsSameControl (State.setResp · r) :=
  fun s d => sameControl_withData s d

theorem memWrite_controlOnly (addr size : Nat) (v : Word) : ControlOnly (memWrite addr size v) := by
  intro s d
  have hselect : selectReg (s.withData d) addr size = selectReg s addr size := rfl
  cases hr : selectReg s addr size with
  | none =>
    simp only [memWrite, hselect, hr]
    exact sameControl_withData s d
  | some r =>
    simp only [memWrite, hselect, hr]
    exact (writeReg_controlOnly r v s d).andThen (setResp_keepsSameControl .okWrite)

/-- What a POLL reads does not depend on data, unless it reads DIN or DOUT (R75). -/
theorem memRead_withData_of_noDataPoll {s : State} {addr gap : Nat} {mask value : Word} (d : DataRegs)
    (h : noDataPoll s (.poll addr mask value gap) = true) : memRead (s.withData d) addr 4 = memRead s addr 4 := by
  have hselect : selectReg (s.withData d) addr 4 = selectReg s addr 4 := rfl
  rw [memRead, memRead, hselect]
  cases hr : selectReg s addr 4 with
  | none => rfl
  | some r => cases r with
    | ctrl | cmd | status | key k => rfl
    | din k | dout k => simp [noDataPoll, hr] at h

theorem hostStep_sameControl {a : HostAction} {s : State} (d : DataRegs) (h : noDataPoll s a = true) :
    SameControlResult (hostStep a s) (hostStep a (s.withData d)) := by
  cases a with
  | read addr size => exact sameControl_withData s d
  | write addr size v => exact memWrite_controlOnly addr size v s d
  | reset => exact sameControl_withData s.resetInput ⟨_, _, _, _, _, _⟩
  | poll addr mask value gap =>
    rw [hostStep, hostStep, memRead_withData_of_noDataPoll d h]
    split_ifs
    · exact sameControl_withData (s.setTurns _) d
    · exact sameControl_withData s d

/-! The engine: the sequencer reads PHASE, UPC, OP_NK, OP_NR and what is left of the latency only (R207, R281). -/

/-- A uop writes data only, and whether it is refused depends on OP_NK and OP_NR only (R109). -/
theorem exec_uop_controlOnly {i : Instr} {u : UopWord} (h : encode i = .uop u) : ControlOnly (exec i) := by
  intro s d
  rw [exec_uop s h, exec_uop _ h, withIdx, withIdx]
  change SameControlResult _ (if idxInRange s.opNk.toNat s.opNr.toNat i = true then _ else _)
  split_ifs
  · exact sameControl_withData s ⟨_, _, _, _, _, _⟩
  · rfl

theorem advance_keepsSameControl : KeepsSameControl advance := by
  intro s d
  by_cases hlast : s.upc.toNat + 1 = (prog s.phase s.opNk.toNat s.opNr.toNat).length
  · rw [advance_of_last hlast, advance_of_last (s := s.withData d) hlast]
    exact sameControl_withData s.complete d
  · rw [advance_of_not_last hlast, advance_of_not_last (s := s.withData d) hlast]
    exact sameControl_withData s.nextUop d

theorem uopStep_controlOnly : ControlOnly uopStep := by
  intro s d
  have hfetch : fetchUop (s.withData d) = fetchUop s := rfl
  cases hs : fetchUop s with
  | none =>
    simp only [uopStep, hfetch, hs]
    rfl
  | some u =>
    cases hdecode : decode (.uop u) with
    | error e =>
      simp only [uopStep, hfetch, hs, hdecode]
      rfl
    | ok i =>
      obtain ⟨x, hx⟩ := uop_of_decode hdecode
      rw [uopStep_of_decode hs hdecode, uopStep_of_decode (hfetch.trans hs) hdecode]
      exact (exec_uop_controlOnly hx s d).andThen advance_keepsSameControl

theorem uopSteps_controlOnly (n : Nat) : ControlOnly (uopSteps n) := by
  induction n with
  | zero => exact uopStep_controlOnly
  | succ n ih => exact fun s d => (uopStep_controlOnly s d).thenDo ih

theorem tick_keepsSameControl : KeepsSameControl State.tick := fun s d => sameControl_withData s.tick d

theorem engineStep_controlOnly : ControlOnly engineStep := by
  intro s d
  by_cases hsteps : s.stepsLeft ≤ 1
  · rw [engineStep_last hsteps, engineStep_last (s := s.withData d) hsteps]
    exact uopSteps_controlOnly _ s d
  · by_cases hleft : uopsLeft s = 1
    · rw [engineStep_waits (by omega) hleft, engineStep_waits (s := s.withData d) (by exact not_le.mp hsteps) hleft]
      exact tick_keepsSameControl s d
    · rw [engineStep_one (by omega) hleft, engineStep_one (s := s.withData d) (by exact not_le.mp hsteps) hleft]
      exact (uopStep_controlOnly s d).andThen tick_keepsSameControl

/-- A step by its agent: which one is due depends on PHASE and the pending actions only (R30). -/
theorem step_sameControl {s : State} (d : DataRegs)
    (h : ∀ u rest, s.turns = u :: rest → noDataPoll s u.act = true) :
    SameControlResult (step s) (step (s.withData d)) := by
  by_cases hidle : s.phase = .idle
  · cases hturns : s.turns with
    | nil =>
      rw [step_of_quiescent hidle hturns, step_of_quiescent (s := s.withData d) hidle hturns]
      rfl
    | cons u rest =>
      rw [step_of_hostDue hturns (.inl hidle), step_of_hostDue (s := s.withData d) hturns (.inl hidle)]
      exact hostStep_sameControl (s := s.setTurns rest) d (h u rest hturns)
  · match hturns : s.turns with
    | [] =>
      rw [step_of_noTurns hidle hturns, step_of_noTurns (s := s.withData d) hidle hturns]
      exact engineStep_controlOnly s d
    | ⟨0, a⟩ :: rest =>
      rw [step_of_hostDue hturns (.inr rfl), step_of_hostDue (s := s.withData d) hturns (.inr rfl)]
      exact hostStep_sameControl (s := s.setTurns rest) d (h _ rest hturns)
    | ⟨n + 1, a⟩ :: rest =>
      rw [step_of_waiting hidle hturns, step_of_waiting (s := s.withData d) hidle hturns]
      exact engineStep_controlOnly _ d

/-- The latencies are parameters (R11): the engine's frame leaves them out, and the host has no way to write them. -/
theorem step_lat {s t : State} (h : step s = .next t) : t.lat = s.lat := by
  obtain ⟨-, ts, hengine⟩ | ⟨n, rest, -, -, ht⟩ | ⟨-, hhost⟩ := step_outcome h
  · rw [engineStep_frame hengine]
    rfl
  · rw [ht]
    rfl
  · cases hhost with
    | busy _ ht | staged _ ht | reported _ _ ht | keyexp _ _ ht | cipher _ _ _ _ _ _ ht => rw [ht]

/-- Settles O56: the second state is the first with other data, and the step of each agent reads control only. -/
theorem timingIndependentOfData : Obligations.TimingIndependentOfData := by
  refine ⟨fun s t hst h => ?_, fun s t => step_lat⟩
  obtain ⟨d, rfl⟩ := exists_withData_of_sameControl hst
  exact step_sameControl d h

end Sys2Proof.Machine
end

section
/-! SUPPORT. A running command by the operations it still has to issue (43_cipher_driver.md R207, R208): an engine step issues
the next one, or none, or all of them and completes, and the state the command will end in stays the same. -/

namespace Sys2Proof.Machine

/-- The operations from UPC to the end of the program (R207). -/
def remaining (s : State) : List Instr := (progInstrs s.phase s.opNk.toNat s.opNr.toNat).drop s.upc.toNat

/-- The state in which the running command ends when nothing interferes: all operations left are issued, then `complete`. -/
def State.finished (s : State) : State := ((remaining s).foldl issueUop s).complete

/-- A command of the variant v runs: its operands are latched and its program is not at an end. -/
def Running (s : State) (v : Variant) : Prop := Latched s v ∧ remaining s ≠ []

/-- What an engine step before the last of a latency does: nothing but count, or the next operation and count (R281). -/
def Earlier (s t : State) : Prop :=
  t = s.tick ∨ ∃ i j is, remaining s = i :: j :: is ∧ t = (issueUop s i).nextUop.tick

/-- The program of the latched operands. -/
theorem Latched.progInstrs_eq {s : State} {v : Variant} (h : Latched s v) (p : Phase) :
    progInstrs p s.opNk.toNat s.opNr.toNat = progInstrs p v.nk v.nr := by
  obtain ⟨hnk, hnr⟩ := h
  rw [hnk, hnr]

/-- UPC can count to the end of every program (R49, R208). -/
theorem progInstrs_length_le (p : Phase) (v : Variant) : (progInstrs p v.nk v.nr).length ≤ 60 := by
  obtain ⟨-, -, hnr⟩ := v.bounds
  obtain ⟨hnk, hpos⟩ := v.nk_le_schedule
  cases p with
  | idle => exact Nat.zero_le 60
  | kexp => rw [progInstrs, progKexp_length hnk]; omega
  | enc => rw [progInstrs, progEnc_length hpos]; omega
  | dec => rw [progInstrs, progDec_length hpos]; omega

theorem running_iff {s : State} {v : Variant} :
    Running s v ↔ Latched s v ∧ s.upc.toNat < (progInstrs s.phase v.nk v.nr).length := by
  refine and_congr_right fun hlatched => ?_
  rw [remaining, hlatched.progInstrs_eq, ne_eq, List.drop_eq_nil_iff, not_le]

theorem uopsLeft_eq_length (s : State) : uopsLeft s = (remaining s).length := by
  rw [uopsLeft, remaining, prog_length, List.length_drop]

section
variable {s : State} {v : Variant} {i : Instr} {is : List Instr} (hrun : Running s v) (hnext : remaining s = i :: is)

include hnext in
theorem progInstrs_getElem?_of_remaining : (progInstrs s.phase s.opNk.toNat s.opNr.toNat)[s.upc.toNat]? = some i := by
  rw [← List.head?_drop, ← remaining, hnext, List.head?_cons]

include hnext in
/-- The place of an operation in its program, against what is left after it. -/
theorem upc_succ_eq_length_iff :
    s.upc.toNat + 1 = (prog s.phase s.opNk.toNat s.opNr.toNat).length ↔ is = [] := by
  have hlength := congrArg List.length hnext
  rw [← uopsLeft_eq_length, uopsLeft, List.length_cons] at hlength
  rw [← List.length_eq_zero_iff]
  omega

include hrun in
theorem upc_lt_sixty : s.upc.toNat < 60 := by
  obtain ⟨-, hplace⟩ := running_iff.mp hrun
  exact hplace.trans_le (progInstrs_length_le s.phase v)

include hrun in
/-- UPC does not wrap around (R49). -/
theorem upc_succ_toNat : (s.upc + 1#6).toNat = s.upc.toNat + 1 := by
  have hplace := upc_lt_sixty hrun
  bv_omega

include hrun hnext

theorem remaining_nextUop : remaining s.nextUop = is := by
  have htail : remaining s.nextUop = (remaining s).tail := by
    rw [remaining, remaining, List.tail_drop]
    exact congrArg (List.drop · _) (upc_succ_toNat hrun)
  rw [htail, hnext, List.tail_cons]

/-- A uop step of a running command issues the next operation, whose index is in range (R109, R207). -/
theorem uopStep_running : uopStep s = .next (advance (issueUop s i)) := by
  have hplace := progInstrs_getElem?_of_remaining hnext
  obtain ⟨u, hfetch, hdecode⟩ := prog_getElem?_of_progInstrs hplace
  obtain ⟨x, hx⟩ := uop_of_decode hdecode
  obtain ⟨hlatched, -⟩ := hrun
  have hmem := List.mem_of_getElem? hplace
  have hrange : idxInRange s.opNk.toNat s.opNr.toNat i = true := by
    rw [hlatched.progInstrs_eq] at hmem
    obtain ⟨hnk, hnr⟩ := hlatched
    rw [hnk, hnr]
    exact idxInRange_of_mem_progInstrs hmem
  exact uopStep_of_exec hfetch hdecode (exec_uop_inRange hx hrange)

theorem uopStep_last (his : is = []) : uopStep s = .next (issueUop s i).complete := by
  rw [uopStep_running hrun hnext]
  exact congrArg Host.Outcome.next (advance_of_last ((upc_succ_eq_length_iff hnext).mpr his))

theorem uopStep_goesOn (his : is ≠ []) : uopStep s = .next (issueUop s i).nextUop := by
  rw [uopStep_running hrun hnext]
  exact congrArg Host.Outcome.next (advance_of_not_last (mt (upc_succ_eq_length_iff hnext).mp his))

theorem running_issueUop (his : is ≠ []) : Running (issueUop s i).nextUop v :=
  ⟨hrun.1, (remaining_nextUop hrun hnext).symm ▸ his⟩

/-- Issuing an operation now or at the end leads to the same end. -/
theorem finished_issueUop : (issueUop s i).nextUop.finished = s.finished := by
  have hleft : remaining (issueUop s i).nextUop = is := remaining_nextUop hrun hnext
  have hcomm : is.foldl issueUop (issueUop s i).nextUop = (is.foldl issueUop (issueUop s i)).nextUop :=
    List.foldl_hom State.nextUop fun _ _ => rfl
  rw [State.finished, State.finished, hleft, hcomm, hnext, List.foldl_cons]
  rfl

end

theorem running_tick {s : State} {v : Variant} : Running s.tick v ↔ Running s v := Iff.rfl

theorem finished_tick (s : State) : s.tick.finished = s.finished := by
  have hcomm : (remaining s).foldl issueUop s.tick = ((remaining s).foldl issueUop s).tick :=
    List.foldl_hom State.tick fun _ _ => rfl
  have hleft : remaining s.tick = remaining s := rfl
  rw [State.finished, hleft, hcomm]
  rfl

/-- All operations left in one go end the command (R208). -/
theorem uopSteps_finished {s : State} {v : Variant} {n : Nat} (hrun : Running s v) (hn : (remaining s).length = n + 1) :
    uopSteps n s = .next s.finished := by
  induction n generalizing s with
  | zero =>
    obtain ⟨i, hnext⟩ := List.length_eq_one_iff.mp hn
    rw [uopSteps, uopStep_last hrun hnext rfl, State.finished, hnext]
    rfl
  | succ n ih =>
    obtain ⟨i, is, hnext⟩ := List.exists_cons_of_length_eq_add_one hn
    have hlength : is.length = n + 1 := by simpa [hnext] using hn
    have his : is ≠ [] := List.ne_nil_of_length_eq_add_one hlength
    have hleft : remaining (issueUop s i).nextUop = is := remaining_nextUop hrun hnext
    rw [uopSteps, uopStep_goesOn hrun hnext his, thenDo, ih (running_issueUop hrun hnext his) (hleft ▸ hlength),
      finished_issueUop hrun hnext]

/-- Everything an engine step of a running command can do (R281). -/
theorem engineStep_running {s : State} {v : Variant} (hrun : Running s v) :
    (s.stepsLeft ≤ 1 ∧ engineStep s = .next s.finished) ∨
    (1 < s.stepsLeft ∧ ∃ t, engineStep s = .next t ∧ Earlier s t) := by
  obtain ⟨i, is, hnext⟩ := List.exists_cons_of_ne_nil hrun.2
  have hleft : uopsLeft s = is.length + 1 := by rw [uopsLeft_eq_length, hnext, List.length_cons]
  by_cases hsteps : s.stepsLeft ≤ 1
  · refine .inl ⟨hsteps, ?_⟩
    rw [engineStep_last hsteps]
    exact uopSteps_finished hrun (by rw [← uopsLeft_eq_length]; omega)
  · refine .inr ⟨not_le.mp hsteps, ?_⟩
    cases is with
    | nil => exact ⟨_, engineStep_waits (not_le.mp hsteps) hleft, .inl rfl⟩
    | cons j is =>
      refine ⟨_, ?_, .inr ⟨i, j, is, hnext, rfl⟩⟩
      rw [engineStep_one (not_le.mp hsteps) (by rw [hleft]; simp), uopStep_goesOn hrun hnext (List.cons_ne_nil j is)]
      rfl

/-- A command that goes on still runs, towards the same end. -/
theorem Earlier.running {s t : State} {v : Variant} (h : Earlier s t) (hrun : Running s v) :
    Running t v ∧ t.finished = s.finished := by
  obtain rfl | ⟨i, j, is, hnext, rfl⟩ := h
  · exact ⟨running_tick.mpr hrun, finished_tick s⟩
  · have his : j :: is ≠ [] := List.cons_ne_nil j is
    exact ⟨running_tick.mpr (running_issueUop hrun hnext his), (finished_tick _).trans (finished_issueUop hrun hnext)⟩

/-- The frame of an engine step before the last. -/
theorem Earlier.frame {s t : State} (h : Earlier s t) :
    t = { s with sreg := t.sreg, w := t.w, dout := t.dout, upc := t.upc, stepsLeft := s.stepsLeft - 1 } := by
  obtain rfl | ⟨i, j, is, -, rfl⟩ := h
  · rfl
  · simp only [State.tick, State.nextUop, issueUop]

/-- The frame of the operations of a command: the data registers S, W and DOUT. -/
theorem foldl_issueUop_frame (is : List Instr) (s : State) :
    is.foldl issueUop s =
      { s with
        sreg := (is.foldl issueUop s).sreg, w := (is.foldl issueUop s).w, dout := (is.foldl issueUop s).dout } := by
  induction is generalizing s with
  | nil => rfl
  | cons i is ih =>
    rw [List.foldl_cons]
    exact ih (issueUop s i)

/-- The control state at the end of a command (R211). -/
theorem finished_control (s : State) :
    s.finished.phase = .idle ∧ s.finished.done = true ∧ s.finished.stepsLeft = 0 ∧ s.finished.err = s.err ∧
      s.finished.turns = s.turns := by
  refine ⟨rfl, rfl, rfl, ?_, ?_⟩
  all_goals
    rw [State.finished, foldl_issueUop_frame]
    rfl

/-- A command runs only while BUSY. -/
theorem Running.phase_ne_idle {s : State} {v : Variant} (h : Running s v) : s.phase ≠ .idle := by
  intro hidle
  obtain ⟨-, hleft⟩ := h
  rw [remaining, hidle] at hleft
  exact hleft List.drop_nil

/-- With no host action pending, the steps before the last of the latency leave the command running (R281, R282). -/
theorem run_earlier {s : State} {v : Variant} {k : Nat} (hrun : Running s v) (hturns : s.turns = [])
    (hk : k < s.stepsLeft) :
    ∃ t, Host.Core.run Sys2Proof.core k s = .next t ∧ Running t v ∧ t.finished = s.finished ∧ t.phase = s.phase ∧
      t.turns = [] ∧ t.stepsLeft + k = s.stepsLeft := by
  induction k generalizing s with
  | zero => exact ⟨s, rfl, hrun, rfl, rfl, hturns, rfl⟩
  | succ k ih =>
    obtain ⟨hlast, -⟩ | ⟨hmore, u, hstep, hu⟩ := engineStep_running hrun
    · omega
    · obtain ⟨hrunu, hfin⟩ := hu.running hrun
      have hturnsu : u.turns = [] := by rw [hu.frame]; exact hturns
      have hphaseu : u.phase = s.phase := by rw [hu.frame]
      have hstepsu : u.stepsLeft = s.stepsLeft - 1 := by rw [hu.frame]
      obtain ⟨t, ht, hrunt, hfint, hphaset, hturnst, hstepst⟩ := ih hrunu hturnsu (by omega)
      refine ⟨t, ?_, hrunt, hfint.trans hfin, hphaset.trans hphaseu, hturnst, by omega⟩
      rw [run_next ((step_of_noTurns hrun.phase_ne_idle hturns).trans hstep), ht]

/-- With no host action pending, the steps of the latency end the command (R281). -/
theorem run_finished {s : State} {v : Variant} (hrun : Running s v) (hturns : s.turns = []) (hsteps : 1 ≤ s.stepsLeft) :
    Host.Core.run Sys2Proof.core s.stepsLeft s = .next s.finished := by
  obtain ⟨t, ht, hrunt, hfin, -, hturnst, hstepst⟩ :=
    run_earlier (k := s.stepsLeft - 1) hrun hturns (by omega)
  have hlast : engineStep t = .next t.finished := by
    obtain ⟨-, hend⟩ | ⟨hmore, -⟩ := engineStep_running hrunt
    · exact hend
    · omega
  rw [← Nat.sub_add_cancel hsteps, run_append ht, run_next ((step_of_noTurns hrunt.phase_ne_idle hturnst).trans hlast),
    hfin]
  rfl

end Sys2Proof.Machine
end

section
/-! SUPPORT. The programs of ENCRYPT and DECRYPT as functions on S (43_cipher_driver.md R208, R213): their operations in
order are Cipher and InvCipher. -/

namespace Sys2Proof.Machine

/-- A round number below 64 is what its six index bits say. -/
theorem toNat_ofNat_six {n : Nat} (h : n < 64) : (BitVec.ofNat 6 n).toNat = n := by
  rw [BitVec.toNat_ofNat, Nat.mod_eq_of_lt h]

/-- The operations of one round of ENCRYPT are the round of Cipher. -/
theorem foldl_encRound (din : Block) (w : KeyStore) (x : SReg) {rnd : Nat} (h : rnd < 64) :
    (encRound rnd).foldl (datapathUop din w) x = cipherRound w x rnd := by
  simp only [encRound, List.foldl_cons, List.foldl_nil, datapathUop, toNat_ofNat_six h, cipherRound]

/-- The operations of one round of DECRYPT are the round of InvCipher. -/
theorem foldl_decRound (din : Block) (w : KeyStore) (x : SReg) {rnd : Nat} (h : rnd < 64) :
    (decRound rnd).foldl (datapathUop din w) x = invCipherRound w x rnd := by
  simp only [decRound, List.foldl_cons, List.foldl_nil, datapathUop, toNat_ofNat_six h, invCipherRound]

/-- The rounds of InvCipher, `Nr-1` down to 1 (R213). -/
theorem middleRounds_reverse (nr : Nat) :
    (middleRounds nr).reverse = (List.range (nr - 1)).map (fun j => nr - 1 - j) := by
  have hup : middleRounds nr = List.range' 1 (nr - 1) := by
    simp [middleRounds, List.range'_eq_map_range, Nat.add_comm]
  rw [hup, List.reverse_range', Nat.add_sub_cancel_left]

/-- ENCRYPT's operations, started from any S, make the state at the end of Cipher (R213). -/
theorem foldl_progEnc (din : Block) (w : KeyStore) (x : SReg) {nr : Nat} (h : nr < 64) :
    (progEnc nr).foldl (datapathUop din w) x = cipherState din w nr := by
  have hrounds (y : SReg) : (List.range (nr - 1)).foldl (fun z j => (encRound (j + 1)).foldl (datapathUop din w) z) y =
      (middleRounds nr).foldl (cipherRound w) y := by
    rw [middleRounds, List.foldl_map]
    refine List.foldl_ext _ _ y fun z j hj => foldl_encRound din w z ?_
    have := List.mem_range.mp hj
    omega
  simp only [progEnc, List.foldl_append, List.foldl_flatMap, hrounds]
  simp only [List.foldl_cons, List.foldl_nil, datapathUop, toNat_ofNat_six h, cipherState]
  rfl

/-- DECRYPT's operations, started from any S, make the state at the end of InvCipher (R213). -/
theorem foldl_progDec (din : Block) (w : KeyStore) (x : SReg) {nr : Nat} (h : nr < 64) :
    (progDec nr).foldl (datapathUop din w) x = invCipherState din w nr := by
  have hrounds (y : SReg) :
      (List.range (nr - 1)).foldl (fun z j => (decRound (nr - 1 - j)).foldl (datapathUop din w) z) y =
        (middleRounds nr).reverse.foldl (invCipherRound w) y := by
    rw [middleRounds_reverse, List.foldl_map]
    exact List.foldl_ext _ _ y fun z j _ => foldl_decRound din w z (by omega)
  simp only [progDec, List.foldl_append, List.foldl_flatMap, hrounds]
  simp only [List.foldl_cons, List.foldl_nil, datapathUop, toNat_ofNat_six h, invCipherState]
  rfl

end Sys2Proof.Machine
end

section
/-! SUPPORT. The end of an ENCRYPT or DECRYPT (43_cipher_driver.md R210 to R213): under the datapath invariant S goes from
what the uops below UPC made of DIN to the cipher, and U_STORE puts it into DOUT. -/

namespace Sys2Proof.Machine

/-- The operations other than U_KLOAD and U_KGEN keep W (R188). -/
theorem scheduleUop_eq_self {i : Instr} (hi : ∀ x, i ≠ .uKload x ∧ i ≠ .uKgen x) (key : KeyRegs) (nk : Nat)
    (w : KeyStore) : scheduleUop key nk w i = w := by
  cases i with
  | uKload x => exact absurd rfl (hi x).1
  | uKgen x => exact absurd rfl (hi x).2
  | _ => rfl

/-- Operations that do not write W leave S to the datapath alone. -/
theorem foldl_issueUop_cipher {is : List Instr} (his : ∀ i ∈ is, ∀ x, i ≠ .uKload x ∧ i ≠ .uKgen x) (s : State) :
    is.foldl issueUop s =
      { s with sreg := is.foldl (datapathUop s.din s.w) s.sreg, dout := (is.foldl issueUop s).dout } := by
  induction is generalizing s with
  | nil => rfl
  | cons i is ih =>
    obtain ⟨hi, his⟩ := List.forall_mem_cons.mp his
    have hstep : issueUop s i = { s with sreg := datapathUop s.din s.w s.sreg i, dout := storeUop s.sreg s.dout i } := by
      rw [issueUop, scheduleUop_eq_self hi]
    rw [List.foldl_cons, List.foldl_cons, ih his, hstep]

section
variable {s : State} (hphase : s.phase = .enc ∨ s.phase = .dec)
include hphase

/-- No operation of ENCRYPT or DECRYPT writes W (R188). -/
theorem not_schedule_of_mem_remaining : ∀ i ∈ remaining s, ∀ x, i ≠ .uKload x ∧ i ≠ .uKgen x := by
  have hne : s.phase ≠ .kexp := by obtain h | h := hphase <;> simp [h]
  intro i hi x
  have hmem := List.mem_of_mem_drop hi
  constructor
  · rintro rfl
    exact hne (phase_eq_kexp_of_mem_progInstrs (.inl hmem))
  · rintro rfl
    exact hne (phase_eq_kexp_of_mem_progInstrs (.inr hmem))

/-- The programs of ENCRYPT and DECRYPT begin with U_LOAD, which overwrites S (R209). -/
theorem exists_uLoad_cons (nk nr : Nat) : ∃ is, progInstrs s.phase nk nr = .uLoad :: is := by
  obtain h | h := hphase <;> rw [h] <;> exact ⟨_, rfl⟩

/-- What is left of a running ENCRYPT or DECRYPT ends with U_STORE (R210). -/
theorem exists_remaining_eq_append_uStore {v : Variant} (hrun : Running s v) : ∃ is, remaining s = is ++ [.uStore] := by
  obtain ⟨-, -, hstores⟩ := storeCopiesToDout
  have hlast : (progInstrs s.phase v.nk v.nr).getLast? = some .uStore := by
    obtain ⟨henc, hdec⟩ := hstores v
    obtain h | h := hphase <;> rw [h] <;> assumption
  obtain ⟨hlatched, hplace⟩ := running_iff.mp hrun
  apply List.getLast?_eq_some_iff.mp
  rw [remaining, hlatched.progInstrs_eq, List.getLast?_drop, if_neg (not_le.mpr hplace), hlast]

/-- Under the datapath invariant, what is left of the program makes the whole program's S of DIN and W. -/
theorem foldl_remaining (hdata : DatapathInv s) :
    (remaining s).foldl (datapathUop s.din s.w) s.sreg =
      datapathRun s.din s.w (progInstrs s.phase s.opNk.toNat s.opNr.toNat) := by
  by_cases hupc : 0 < s.upc.toNat
  · rw [hdata hphase hupc, datapathRun, ← List.foldl_append, remaining, List.take_append_drop]
    rfl
  · obtain ⟨is, his⟩ := exists_uLoad_cons hphase s.opNk.toNat s.opNr.toNat
    rw [remaining, Nat.eq_zero_of_not_pos hupc, List.drop_zero, his]
    rfl

/-- An ENCRYPT or DECRYPT ends with nothing changed but S, DOUT, DONE and the sequencer's place (R211). -/
theorem finished_frame_cipher :
    s.finished =
      { s with
        sreg := s.finished.sreg, dout := s.finished.dout, done := true, phase := .idle, upc := 0#6, stepsLeft := 0 } := by
  have hne : s.phase ≠ .kexp := by obtain h | h := hphase <;> simp [h]
  rw [State.finished, foldl_issueUop_cipher (not_schedule_of_mem_remaining hphase) s]
  exact State.complete_of_ne_kexp hne

/-- An ENCRYPT or DECRYPT ends with the S that its program makes of DIN and W, and with that block in DOUT (R210). -/
theorem finished_cipher {v : Variant} (hrun : Running s v) (hdata : DatapathInv s) {x : SReg}
    (hx : datapathRun s.din s.w (progInstrs s.phase s.opNk.toNat s.opNr.toNat) = x) :
    s.finished =
      { s with sreg := x, dout := blockOfSreg x, done := true, phase := .idle, upc := 0#6, stepsLeft := 0 } := by
  obtain ⟨is, his⟩ := exists_remaining_eq_append_uStore hphase hrun
  have hsreg : s.finished.sreg = x := by
    rw [← hx, ← foldl_remaining hphase hdata]
    exact congrArg State.sreg (foldl_issueUop_cipher (not_schedule_of_mem_remaining hphase) s)
  have hstore : s.finished.dout = blockOfSreg s.finished.sreg := by
    rw [State.finished, his, List.foldl_append]
    rfl
  rw [finished_frame_cipher hphase, hstore, hsreg]

end

section
variable {s : State} {v : Variant} (hlatched : Latched s v)
include hlatched

theorem datapathRun_enc (hphase : s.phase = .enc) :
    datapathRun s.din s.w (progInstrs s.phase s.opNk.toNat s.opNr.toNat) = cipherState s.din s.w v.nr := by
  obtain ⟨-, -, hnr⟩ := v.bounds
  rw [hlatched.progInstrs_eq, hphase]
  exact foldl_progEnc s.din s.w _ (by omega)

theorem datapathRun_dec (hphase : s.phase = .dec) :
    datapathRun s.din s.w (progInstrs s.phase s.opNk.toNat s.opNr.toNat) = invCipherState s.din s.w v.nr := by
  obtain ⟨-, -, hnr⟩ := v.bounds
  rw [hlatched.progInstrs_eq, hphase]
  exact foldl_progDec s.din s.w _ (by omega)

end

/-- A command just accepted runs (R200, R208). -/
theorem running_of_accepted {s : State} {v : Variant} (hlatched : Latched s v) (hbusy : s.phase ≠ .idle)
    (hupc : s.upc = 0#6) : Running s v := by
  obtain ⟨hnk, hnr⟩ := v.nk_le_schedule
  refine running_iff.mpr ⟨hlatched, ?_⟩
  rw [hupc]
  cases hphase : s.phase with
  | idle => exact absurd hphase hbusy
  | kexp => rw [progInstrs, progKexp_length hnk]; exact Nat.succ_pos _
  | enc => rw [progInstrs, progEnc_length hnr]; exact Nat.succ_pos _
  | dec => rw [progInstrs, progDec_length hnr]; exact Nat.succ_pos _

/-- Settles O35: at acceptance no uop was issued, so the datapath invariant holds, and the run ends as `finished_cipher` says. -/
theorem encryptAndDecryptAreTheCiphers : Obligations.EncryptAndDecryptAreTheCiphers := by
  intro s v hupc hlatched hturns hsteps
  have hdata : DatapathInv s := fun _ hpos => absurd hpos (by rw [hupc]; exact Nat.lt_irrefl 0)
  refine ⟨fun hphase => ?_, fun hphase => ?_⟩
  · have hrun := running_of_accepted hlatched (by rw [hphase]; nofun) hupc
    rw [run_finished hrun hturns hsteps, finished_cipher (.inl hphase) hrun hdata (datapathRun_enc hlatched hphase)]
    rfl
  · have hrun := running_of_accepted hlatched (by rw [hphase]; nofun) hupc
    rw [run_finished hrun hturns hsteps, finished_cipher (.inr hphase) hrun hdata (datapathRun_dec hlatched hphase)]
    rfl

/-- In a busy state of the invariant a command runs (R49). -/
theorem State.Inv.running {s : State} (h : s.Inv) (hbusy : s.phase ≠ .idle) : ∃ v, Running s v := by
  obtain ⟨-, -, ⟨-, hseq⟩, -, -⟩ := h
  obtain ⟨-, -, v, hlatched, hplace⟩ := hseq hbusy
  exact ⟨v, running_iff.mpr ⟨hlatched, hplace⟩⟩

/-- An engine step that ends in IDLE is the one that completes. -/
theorem eq_finished_of_engineStep {s t : State} {v : Variant} (hrun : Running s v) (h : engineStep s = .next t)
    (hidle : t.phase = .idle) : t = s.finished := by
  obtain ⟨-, hlast⟩ | ⟨-, u, hu, hearlier⟩ := engineStep_running hrun
  · exact Host.Outcome.next.inj (h.symm.trans hlast)
  · cases Host.Outcome.next.inj (h.symm.trans hu)
    obtain ⟨hrunt, -⟩ := hearlier.running hrun
    exact absurd hidle hrunt.phase_ne_idle

/-- Settles O38: the completing engine step ends in the state that the running command ends in. -/
theorem completionDeliversTheCiphers : Obligations.CompletionDeliversTheCiphers := by
  intro s t hinv hdata h hidle
  have hend {v : Variant} (hrun : Running s v) := eq_finished_of_engineStep hrun h hidle
  refine ⟨fun hphase => ?_, fun hphase => ?_⟩
  · obtain ⟨v, hrun⟩ := hinv.running (by rw [hphase]; nofun)
    obtain ⟨hlatched, -⟩ := id hrun
    rw [hend hrun, finished_cipher (.inl hphase) hrun hdata (datapathRun_enc hlatched hphase), hlatched.2]
    rfl
  · obtain ⟨v, hrun⟩ := hinv.running (by rw [hphase]; nofun)
    obtain ⟨hlatched, -⟩ := id hrun
    rw [hend hrun, finished_cipher (.inr hphase) hrun hdata (datapathRun_dec hlatched hphase), hlatched.2]
    rfl

/-- Issuing the next operation of ENCRYPT or DECRYPT keeps the datapath invariant; the first one is U_LOAD, before which S is
free. -/
theorem datapathInv_issueUop {s : State} {v : Variant} {i : Instr} {is : List Instr} (hrun : Running s v)
    (hnext : remaining s = i :: is) (hdata : DatapathInv s) : DatapathInv (issueUop s i).nextUop := by
  intro hrunning _
  have hphase : s.phase = .enc ∨ s.phase = .dec := hrunning
  have hplace := progInstrs_getElem?_of_remaining hnext
  have hmem : i ∈ remaining s := hnext ▸ List.mem_cons_self
  change datapathUop s.din s.w s.sreg i = datapathRun s.din (scheduleUop s.key s.opNk.toNat s.w i)
    ((progInstrs s.phase s.opNk.toNat s.opNr.toNat).take (s.upc + 1#6).toNat)
  rw [scheduleUop_eq_self (not_schedule_of_mem_remaining hphase i hmem)]
  rw [upc_succ_toNat hrun, List.take_add_one, hplace]
  by_cases hpos : 0 < s.upc.toNat
  · rw [hdata hphase hpos, datapathRun, datapathRun, List.foldl_append]
    rfl
  · obtain ⟨is', his'⟩ := exists_uLoad_cons hphase s.opNk.toNat s.opNr.toNat
    rw [Nat.eq_zero_of_not_pos hpos, his'] at hplace ⊢
    cases Option.some.inj hplace
    rfl

theorem datapathInv_tick {s : State} : DatapathInv s.tick ↔ DatapathInv s := Iff.rfl

theorem Earlier.datapathInv {s t : State} {v : Variant} (h : Earlier s t) (hrun : Running s v) (hdata : DatapathInv s) :
    DatapathInv t := by
  obtain rfl | ⟨i, j, is, hnext, rfl⟩ := h
  · exact datapathInv_tick.mpr hdata
  · exact datapathInv_tick.mpr (datapathInv_issueUop hrun hnext hdata)

/-- Settles O37: an engine step issues operations or completes; the host starts a command at UPC 0 and writes no operand of
a running one. -/
theorem stepKeepsDatapathInv : Obligations.StepKeepsDatapathInv := by
  intro s t hinv hdata h
  obtain ⟨⟨hbusy, -⟩, ts, hengine⟩ | ⟨n, rest, -, -, ht⟩ | ⟨-, hhost⟩ := step_outcome h
  · obtain ⟨v, hrun⟩ := hinv.running hbusy
    have hrunts : Running (s.setTurns ts) v := hrun
    obtain ⟨-, hlast⟩ | ⟨-, u, hu, hearlier⟩ := engineStep_running hrunts
    · cases Host.Outcome.next.inj (hengine.symm.trans hlast)
      exact fun hphase => hphase.elim nofun nofun
    · cases Host.Outcome.next.inj (hengine.symm.trans hu)
      exact hearlier.datapathInv hrunts hdata
  · rw [ht]
    exact fun hphase => hphase.elim nofun nofun
  · cases hhost with
    | busy _ ht =>
      rw [ht]
      exact hdata
    | staged hidle ht | reported hidle _ ht =>
      have hidlet : t.phase = .idle := by rw [ht]; exact hidle
      exact fun hphase => by simp [hidlet] at hphase
    | keyexp _ _ ht | cipher _ _ _ _ _ _ ht =>
      have hupc : t.upc = 0#6 := by rw [ht]
      exact fun _ hpos => absurd hpos (by rw [hupc]; exact Nat.lt_irrefl 0)

end Sys2Proof.Machine
end

section
/-! SUPPORT. The program of KEYEXP as a function on W (42_key_expansion.md R182 to R184, R189): place n of it writes word n of
the schedule, so its operations in order fill W with KeyExpansion. -/

namespace Sys2Proof.Machine

/-- Word n of the schedule from the words before it: a key word, or what the word generator makes (R183, R184). -/
def nextWord (key : KeyRegs) (nk n : Nat) (w : KeyStore) : Word :=
  if n < nk then keyAt key n else kgenWord nk n (wAt w (n - 1)) (wAt w (n - nk))

/-- The words of W below n are those of the schedule of the key. -/
def Filled (key : KeyRegs) (nk n : Nat) (w : KeyStore) : Prop :=
  ScheduleTo nk n w ∧ ∀ i, i < nk → i < n → wAt w i = keyAt key i

/-- Place n of the program of KEYEXP writes word n (R208). -/
theorem scheduleUop_of_place {key : KeyRegs} {nk nr n : Nat} {i : Instr} (w : KeyStore) (hn : n < 4 * (nr + 1))
    (hn60 : n < 60) (h : (progKexp nk nr)[n]? = some i) :
    scheduleUop key nk w i = w.setIfInBounds n (nextWord key nk n w) := by
  have hidx : (BitVec.ofNat 6 n).toNat = n := toNat_ofNat_six (by omega)
  rw [progKexp_getElem? hn] at h
  obtain rfl := Option.some.inj h
  unfold nextWord
  split_ifs <;> simp only [scheduleUop, hidx]

/-- Writing the next word extends the schedule by it: the words it is made of stay. -/
theorem Filled.succ {key : KeyRegs} {nk n : Nat} {w : KeyStore} (h : Filled key nk n w) (hnk : 0 < nk) (hn : n < 60) :
    Filled key nk (n + 1) (w.setIfInBounds n (nextWord key nk n w)) := by
  obtain ⟨hschedule, hkey⟩ := h
  have hold (i : Nat) (hi : i ≠ n) : wAt (w.setIfInBounds n (nextWord key nk n w)) i = wAt w i := by
    rw [wAt_setIfInBounds _ _ _ _ hn, if_neg hi]
  have hnew : wAt (w.setIfInBounds n (nextWord key nk n w)) n = nextWord key nk n w := by
    rw [wAt_setIfInBounds _ _ _ _ hn, if_pos rfl]
  constructor
  · intro i hlow hi
    rw [hold (i - 1) (by omega), hold (i - nk) (by omega)]
    obtain hlt | rfl := Nat.lt_succ_iff_lt_or_eq.mp hi
    · rw [hold i hlt.ne, hschedule i hlow hlt]
    · rw [hnew, nextWord, if_neg (not_lt.mpr hlow)]
  · intro i hlow hi
    obtain hlt | rfl := Nat.lt_succ_iff_lt_or_eq.mp hi
    · rw [hold i hlt.ne, hkey i hlow hlt]
    · rw [hnew, nextWord, if_pos hlow]

/-- An induction along the rest of the program of KEYEXP: what each written word keeps holds at its end. -/
theorem foldl_scheduleUop_induction {key : KeyRegs} {nk nr : Nat} {P : Nat → KeyStore → Prop}
    (hnk : nk ≤ 4 * (nr + 1)) (hnr : 4 * (nr + 1) ≤ 60)
    (hstep : ∀ n w, n < 4 * (nr + 1) → P n w → P (n + 1) (w.setIfInBounds n (nextWord key nk n w)))
    {n : Nat} {w : KeyStore} (hn : n ≤ 4 * (nr + 1)) (h : P n w) :
    P (4 * (nr + 1)) (((progKexp nk nr).drop n).foldl (scheduleUop key nk) w) := by
  induction hn using Nat.decreasingInduction generalizing w with
  | self =>
    rw [List.drop_of_length_le (progKexp_length hnk).le]
    exact h
  | of_succ n hlt ih =>
    have hplace : n < (progKexp nk nr).length := by rw [progKexp_length hnk]; omega
    rw [List.drop_eq_getElem_cons hplace, List.foldl_cons,
      scheduleUop_of_place w hlt (by omega) (List.getElem?_eq_getElem hplace)]
    exact ih (hstep n w hlt h)

/-- A filled W is the schedule (R189): both are determined word by word. -/
theorem Filled.eq_keyExpansion {key : KeyRegs} {nk nr : Nat} {w : KeyStore} (hnk : 0 < nk)
    (h : Filled key nk (4 * (nr + 1)) w) {i : Nat} (hi : i < 4 * (nr + 1)) :
    wAt w i = (keyExpansion key nk nr).getD i 0#32 := by
  obtain ⟨hschedule, hkey⟩ := h
  induction i using Nat.strong_induction_on with
  | _ i ih =>
    rw [keyExpansion, scheduleWords_getD key nk _ i hnk (by omega)]
    split_ifs with hlow
    · exact hkey i hlow hi
    · rw [hschedule i (by omega) hi, ih (i - 1) (by omega) (by omega), ih (i - nk) (by omega) (by omega)]
      rfl

section
variable (v : Variant) {key : KeyRegs} {n : Nat} {w : KeyStore} (hn : n ≤ 4 * (v.nr + 1))
include hn

/-- The rest of the program of KEYEXP completes the schedule. -/
theorem filled_foldl_scheduleUop (h : Filled key v.nk n w) :
    Filled key v.nk (4 * (v.nr + 1)) (((progKexp v.nk v.nr).drop n).foldl (scheduleUop key v.nk) w) := by
  obtain ⟨hnk4, -, hnr⟩ := v.bounds
  exact foldl_scheduleUop_induction v.nk_le_schedule.1 (by omega)
    (fun n w hlt hfilled => hfilled.succ (by omega) (by omega)) hn h

/-- The program of KEYEXP does not write above the schedule (R182). -/
theorem wAt_foldl_scheduleUop_above {j : Nat} (hj : 4 * (v.nr + 1) ≤ j) :
    wAt (((progKexp v.nk v.nr).drop n).foldl (scheduleUop key v.nk) w) j = wAt w j := by
  obtain ⟨-, -, hnr⟩ := v.bounds
  refine foldl_scheduleUop_induction (P := fun _ x => wAt x j = wAt w j) v.nk_le_schedule.1 (by omega)
    (fun n x hlt hx => ?_) hn rfl
  rw [wAt_setIfInBounds _ _ _ _ (by omega), if_neg (by omega), hx]

end

end Sys2Proof.Machine
end

section
/-! SUPPORT. The end of a KEYEXP (42_key_expansion.md R189, 43_cipher_driver.md R211). -/

namespace Sys2Proof.Machine

/-- The operations of KEYEXP change W only (R183, R184). -/
theorem foldl_issueUop_kexp {is : List Instr} (his : ∀ i ∈ is, ∃ x, i = .uKload x ∨ i = .uKgen x) (s : State) :
    is.foldl issueUop s = { s with w := is.foldl (scheduleUop s.key s.opNk.toNat) s.w } := by
  induction is generalizing s with
  | nil => rfl
  | cons i is ih =>
    obtain ⟨⟨x, hi⟩, his⟩ := List.forall_mem_cons.mp his
    have hstep : issueUop s i = { s with w := scheduleUop s.key s.opNk.toNat s.w i } := by
      obtain rfl | rfl := hi <;> rfl
    rw [List.foldl_cons, List.foldl_cons, ih his, hstep]

theorem mem_progKexp {nk nr : Nat} : ∀ i ∈ progKexp nk nr, ∃ x, i = .uKload x ∨ i = .uKgen x := by
  simp only [progKexp, List.forall_mem_append, List.forall_mem_map]
  exact ⟨fun j _ => ⟨_, .inl rfl⟩, fun j _ => ⟨_, .inr rfl⟩⟩

/-- The code a completing KEYEXP writes to KVAR is that of its variant (R104, R211). -/
theorem Latched.kvarOfNk_eq {s : State} {v : Variant} (h : Latched s v) : kvarOfNk s.opNk = v.code := by
  obtain ⟨hnk, -⟩ := h
  have hofNat : s.opNk = BitVec.ofNat 4 v.nk := by rw [← hnk, BitVec.ofNat_toNat, BitVec.setWidth_eq]
  rw [hofNat]
  cases v <;> rfl

theorem variantOf_code (v : Variant) : variantOf v.code = some v := by cases v <;> rfl

section
variable {s : State} {v : Variant} (hphase : s.phase = .kexp) (hrun : Running s v)
include hphase hrun

theorem remaining_kexp : remaining s = (progKexp v.nk v.nr).drop s.upc.toNat := by
  rw [remaining, hrun.1.progInstrs_eq, hphase, progInstrs]

/-- A running KEYEXP ends with the schedule's words in W and KEY_VALID and KVAR set, and with nothing else changed (R211). -/
theorem finished_kexp :
    s.finished =
      { s with
        w := ((progKexp v.nk v.nr).drop s.upc.toNat).foldl (scheduleUop s.key v.nk) s.w, keyValid := true
        kvar := v.code, done := true, phase := .idle, upc := 0#6, stepsLeft := 0 } := by
  obtain ⟨hlatched, -⟩ := id hrun
  have hmem : ∀ i ∈ remaining s, ∃ x, i = .uKload x ∨ i = .uKgen x := by
    rw [remaining_kexp hphase hrun]
    exact fun i hi => mem_progKexp i (List.mem_of_mem_drop hi)
  rw [State.finished, foldl_issueUop_kexp hmem s, State.complete_of_kexp (by exact hphase), remaining_kexp hphase hrun,
    hlatched.kvarOfNk_eq, hlatched.1]

theorem upc_le_schedule : s.upc.toNat ≤ 4 * (v.nr + 1) := by
  obtain ⟨-, hplace⟩ := running_iff.mp hrun
  rw [hphase, progInstrs, progKexp_length v.nk_le_schedule.1] at hplace
  exact hplace.le

/-- A KEYEXP that has filled W up to UPC ends with the whole schedule in W. -/
theorem filled_finished (hfilled : Filled s.key v.nk s.upc.toNat s.w) :
    Filled s.key v.nk (4 * (v.nr + 1)) s.finished.w := by
  rw [finished_kexp hphase hrun]
  exact filled_foldl_scheduleUop v (upc_le_schedule hphase hrun) hfilled

/-- The words above the schedule stay (R182). -/
theorem wAt_finished_above {j : Nat} (hj : 4 * (v.nr + 1) ≤ j) : wAt s.finished.w j = wAt s.w j := by
  rw [finished_kexp hphase hrun]
  exact wAt_foldl_scheduleUop_above v (upc_le_schedule hphase hrun) hj

end

/-- Before the first operation nothing is claimed of W. -/
theorem filled_zero (key : KeyRegs) (nk : Nat) (w : KeyStore) : Filled key nk 0 w :=
  ⟨fun i _ hi => absurd hi (Nat.not_lt_zero i), fun i _ hi => absurd hi (Nat.not_lt_zero i)⟩

/-- The invariant of a running KEYEXP: W is filled up to UPC. -/
theorem State.Inv.filled {s : State} {v : Variant} (h : s.Inv) (hphase : s.phase = .kexp) (hlatched : Latched s v) :
    Filled s.key v.nk s.upc.toNat s.w := by
  obtain ⟨-, -, -, -, -, hfilled⟩ := h
  rw [← hlatched.1]
  exact hfilled hphase

/-- Settles O29: the run ends, and so does the completing engine step, in the state that the running KEYEXP ends in. -/
theorem keyexpMakesTheSchedule : Obligations.KeyexpMakesTheSchedule := by
  refine ⟨fun s v hphase hupc hlatched hturns hsteps => ?_, fun s t v hinv hphase hlatched h hidle => ?_⟩
  · obtain ⟨hnk, -, -⟩ := v.bounds
    have hrun := running_of_accepted hlatched (by rw [hphase]; nofun) hupc
    have hfilled : Filled s.key v.nk s.upc.toNat s.w := by rw [hupc]; exact filled_zero s.key v.nk s.w
    refine ⟨s.finished.w, ?_, keyExpansion_length s.key v.nk v.nr,
      fun i => (filled_finished hphase hrun hfilled).eq_keyExpansion (by omega),
      fun i => wAt_finished_above hphase hrun⟩
    rw [run_finished hrun hturns hsteps, finished_kexp hphase hrun]
  · obtain ⟨hnk, -, -⟩ := v.bounds
    obtain ⟨v', -, hleft⟩ := hinv.running (by rw [hphase]; nofun)
    have hrun : Running s v := ⟨hlatched, hleft⟩
    rw [eq_finished_of_engineStep hrun h hidle]
    have hschedule := filled_finished hphase hrun (hinv.filled hphase hlatched)
    refine ⟨?_, ?_, fun i => hschedule.eq_keyExpansion (by omega)⟩
    all_goals rw [finished_kexp hphase hrun]

end Sys2Proof.Machine
end

section
/-! SUPPORT. The invariant of the control state and the key schedule (10_state.md R36, R39, R40, R49): each kind of step keeps
it. -/

namespace Sys2Proof.Machine

/-- Each latency parameter is at least 1 (R11). -/
def LatenciesPositive (s : State) : Prop := ∀ p v, p ≠ .idle → 1 ≤ s.lat.steps p v

/-- STATUS.KEY_VALID is 1 only with a complete schedule of the variant in KVAR in W (R36). -/
def KeyValidLegal (s : State) : Prop :=
  s.keyValid = true → ∃ v, variantOf s.kvar = some v ∧ ScheduleTo v.nk (4 * v.nr + 4) s.w

/-- An IDLE state meets the invariant when its status, its latencies and its key do. -/
theorem State.Inv.of_idle {s : State} (hidle : s.phase = .idle) (hupc : s.upc = 0#6) (hstatus : StatusLegal s)
    (hlat : LatenciesPositive s) (hkey : KeyValidLegal s) : s.Inv :=
  ⟨hstatus, ⟨hlat, fun hbusy => absurd hidle hbusy⟩, ⟨fun _ => hupc, fun hbusy => absurd hidle hbusy⟩,
    ⟨fun h => by simp [hidle] at h, fun h => by simp [hidle] at h⟩, hkey, fun h => by simp [hidle] at h⟩

/-- What the invariant says of an IDLE state (R49). -/
theorem State.Inv.idle {s : State} (h : s.Inv) (hidle : s.phase = .idle) :
    s.upc = 0#6 ∧ StatusLegal s ∧ LatenciesPositive s ∧ KeyValidLegal s := by
  obtain ⟨hstatus, ⟨hlat, -⟩, ⟨hupc, -⟩, -, hkey, -⟩ := h
  exact ⟨hupc hidle, hstatus, hlat, hkey⟩

/-- The latched operands of a variant (R50). -/
theorem Latched.of_ofNat {s : State} {v : Variant} (hnk : s.opNk = BitVec.ofNat 4 v.nk)
    (hnr : s.opNr = BitVec.ofNat 4 v.nr) : Latched s v := by
  rw [Latched, hnk, hnr]
  cases v <;> exact ⟨rfl, rfl⟩

/-- The command that runs while BUSY, if it is no KEYEXP. -/
theorem enc_or_dec {p : Phase} (hbusy : p ≠ .idle) (hkexp : p ≠ .kexp) : p = .enc ∨ p = .dec := by
  cases p with
  | idle => exact absurd rfl hbusy
  | kexp => exact absurd rfl hkexp
  | enc => exact .inl rfl
  | dec => exact .inr rfl

/-- A command just accepted meets the invariant when the key of its variant does (R200, R204 to R206). -/
theorem State.Inv.of_accepted {s : State} {v : Variant} (hbusy : s.phase ≠ .idle) (hupc : s.upc = 0#6)
    (hlatched : Latched s v) (hdone : s.done = false) (herr : s.err = 0#4) (hkvar : ∃ x, variantOf s.kvar = some x)
    (hlat : LatenciesPositive s) (hsteps : 1 ≤ s.stepsLeft) (hphase : KeyPhaseLegal s) (hkey : KeyValidLegal s) :
    s.Inv := by
  refine ⟨⟨by rw [herr]; decide, hkvar⟩, ⟨hlat, fun _ => hsteps⟩, ⟨fun hidle => absurd hidle hbusy, fun _ => ?_⟩, hphase,
    hkey, fun _ => ?_⟩
  · exact ⟨hdone, herr, v, running_iff.mp (running_of_accepted hlatched hbusy hupc)⟩
  · rw [hupc]
    exact filled_zero s.key s.opNk.toNat s.w

/-- Issuing the next operation keeps the schedule legal: KEYEXP extends it, ENCRYPT and DECRYPT do not write W. -/
theorem scheduleLegal_issueUop {s : State} {v : Variant} {i : Instr} {is : List Instr} (hrun : Running s v)
    (hnext : remaining s = i :: is) (hphase : KeyPhaseLegal s) (h : ScheduleLegal s) :
    ScheduleLegal (issueUop s i).nextUop := by
  obtain ⟨hkexp, -⟩ := hphase
  obtain ⟨hkey, hfilled⟩ := h
  constructor
  · intro hvalid
    have hne : s.phase ≠ .kexp := fun hp => absurd ((hkexp hp).symm.trans hvalid) nofun
    have hcipher := enc_or_dec hrun.phase_ne_idle hne
    have hmem : i ∈ remaining s := hnext ▸ List.mem_cons_self
    change ∃ v, variantOf s.kvar = some v ∧ ScheduleTo v.nk (4 * v.nr + 4) (scheduleUop s.key s.opNk.toNat s.w i)
    rw [scheduleUop_eq_self (not_schedule_of_mem_remaining hcipher i hmem)]
    exact hkey hvalid
  · intro hkexpNext
    have hp : s.phase = .kexp := hkexpNext
    obtain ⟨hnk, -, hnr⟩ := v.bounds
    obtain ⟨hlatched, hplace⟩ := running_iff.mp hrun
    rw [hp, progInstrs, progKexp_length v.nk_le_schedule.1] at hplace
    have hop := progInstrs_getElem?_of_remaining hnext
    rw [hlatched.progInstrs_eq, hp, progInstrs] at hop
    have hw : scheduleUop s.key s.opNk.toNat s.w i = s.w.setIfInBounds s.upc.toNat
        (nextWord s.key s.opNk.toNat s.upc.toNat s.w) := by
      rw [hlatched.1]
      exact scheduleUop_of_place s.w hplace (by omega) hop
    change Filled s.key s.opNk.toNat (s.upc + 1#6).toNat (scheduleUop s.key s.opNk.toNat s.w i)
    rw [hw, upc_succ_toNat hrun]
    exact Filled.succ (hfilled hp) (by rw [hlatched.1]; omega) (by omega)

theorem scheduleLegal_tick {s : State} : ScheduleLegal s.tick ↔ ScheduleLegal s := Iff.rfl

/-- An engine step before the last of the latency keeps the invariant. -/
theorem Earlier.inv {s t : State} (h : Earlier s t) (hinv : s.Inv) (hbusy : s.phase ≠ .idle) (hsteps : 1 < s.stepsLeft) :
    t.Inv := by
  obtain ⟨v, hrun⟩ := hinv.running hbusy
  obtain ⟨hrunt, -⟩ := h.running hrun
  obtain ⟨hstatus, ⟨hlat, -⟩, ⟨-, hseq⟩, hphase, hschedule⟩ := hinv
  obtain ⟨hdone, herr, -⟩ := hseq hbusy
  have hschedulet : ScheduleLegal t := by
    obtain rfl | ⟨i, j, is, hnext, rfl⟩ := h
    · exact scheduleLegal_tick.mpr hschedule
    · exact scheduleLegal_tick.mpr (scheduleLegal_issueUop hrun hnext hphase hschedule)
  have hframe := h.frame
  have hseqt : SequencerLegal t := by
    refine ⟨fun hidle => absurd hidle hrunt.phase_ne_idle, fun _ => ⟨?_, ?_, v, running_iff.mp hrunt⟩⟩
    · rw [hframe]
      exact hdone
    · rw [hframe]
      exact herr
  have hrest : StatusLegal t ∧ LatencyLegal t ∧ KeyPhaseLegal t := by
    rw [hframe]
    exact ⟨hstatus, ⟨hlat, fun _ => Nat.le_sub_one_of_lt hsteps⟩, hphase⟩
  obtain ⟨hstatust, hlatt, hphaset⟩ := hrest
  exact ⟨hstatust, hlatt, hseqt, hphaset, hschedulet⟩

/-- The end of a running command meets the invariant: a KEYEXP leaves its schedule, ENCRYPT and DECRYPT the one they used. -/
theorem State.Inv.finished {s : State} (hinv : s.Inv) (hbusy : s.phase ≠ .idle) : s.finished.Inv := by
  obtain ⟨v, hrun⟩ := hinv.running hbusy
  obtain ⟨⟨herr, hkvar⟩, ⟨hlat, -⟩, -, -, hkey, -⟩ := id hinv
  by_cases hkexp : s.phase = .kexp
  · obtain ⟨hschedule, -⟩ := filled_finished hkexp hrun (hinv.filled hkexp hrun.1)
    rw [finished_kexp hkexp hrun] at hschedule ⊢
    exact .of_idle rfl rfl ⟨herr, v, variantOf_code v⟩ hlat fun _ => ⟨v, variantOf_code v, hschedule⟩
  · rw [finished_frame_cipher (enc_or_dec hbusy hkexp)]
    exact .of_idle rfl rfl ⟨herr, hkvar⟩ hlat hkey

/-- An engine step keeps the invariant. -/
theorem inv_engineStep {s t : State} (hinv : s.Inv) (hbusy : s.phase ≠ .idle) (h : engineStep s = .next t) : t.Inv := by
  obtain ⟨v, hrun⟩ := hinv.running hbusy
  obtain ⟨-, hlast⟩ | ⟨hsteps, u, hu, hearlier⟩ := engineStep_running hrun
  · cases Host.Outcome.next.inj (h.symm.trans hlast)
    exact hinv.finished hbusy
  · cases Host.Outcome.next.inj (h.symm.trans hu)
    exact hearlier.inv hinv hbusy hsteps

/-- A step of the host keeps the invariant. -/
theorem HostOutcome.inv {s t : State} (h : HostOutcome s t) (hinv : s.Inv) : t.Inv := by
  cases h with
  | busy hbusy ht =>
    rw [ht]
    exact hinv
  | staged hidle ht =>
    obtain ⟨hupc, hstatus, hlat, hkey⟩ := hinv.idle hidle
    rw [ht]
    exact .of_idle hidle hupc hstatus hlat hkey
  | reported hidle herr ht =>
    obtain ⟨hupc, ⟨-, hkvar⟩, hlat, hkey⟩ := hinv.idle hidle
    rw [ht]
    exact .of_idle hidle hupc ⟨herr, hkvar⟩ hlat hkey
  | keyexp hidle x ht =>
    obtain ⟨-, ⟨-, hkvar⟩, hlat, -⟩ := hinv.idle hidle
    rw [ht]
    exact .of_accepted (v := x) nofun rfl (.of_ofNat rfl rfl) rfl rfl hkvar hlat (hlat .kexp x nofun)
      ⟨fun _ => rfl, fun h => h.elim nofun nofun⟩ nofun
  | cipher hidle hvalid x p hp hx ht =>
    obtain ⟨-, ⟨-, hkvar⟩, hlat, hkey⟩ := hinv.idle hidle
    have hbusy : p ≠ .idle := by obtain rfl | rfl := hp <;> nofun
    have hkexp : p ≠ .kexp := by obtain rfl | rfl := hp <;> nofun
    rw [ht]
    exact .of_accepted (v := x) hbusy rfl (.of_ofNat rfl rfl) rfl rfl hkvar hlat (hlat p x hbusy)
      ⟨fun h => absurd h hkexp, fun _ => ⟨hvalid, x, hx, Latched.of_ofNat rfl rfl⟩⟩ hkey

/-- Settles O49: the engine's steps, the reset input and the host's steps each keep the invariant. -/
theorem stepKeepsInv : Obligations.StepKeepsInv := by
  intro s t hinv h
  obtain ⟨⟨hbusy, -⟩, ts, hengine⟩ | ⟨n, rest, -, -, rfl⟩ | ⟨-, hhost⟩ := step_outcome h
  · exact inv_engineStep (s := s.setTurns ts) hinv hbusy hengine
  · obtain ⟨-, ⟨hlat, -⟩, -⟩ := hinv
    exact .of_idle rfl rfl ⟨Nat.zero_le 5, .aes128, rfl⟩ hlat nofun
  · exact hhost.inv hinv

end Sys2Proof.Machine
end

section
/-! SUPPORT. Progress (60_exceptions.md R259): in a state of the invariant neither agent's step is refused. -/

namespace Sys2Proof.Machine

/-- A CMD write with a legal KVAR always answers a next state. -/
theorem exists_writeCmd {s : State} (v : Word) (hkvar : ∃ x, variantOf s.kvar = some x) : ∃ t, writeCmd v s = .next t := by
  by_cases hidle : s.phase = .idle
  · obtain ⟨t, ht, -⟩ := writeCmd_err v hidle hkvar
    exact ⟨t, ht⟩
  · exact ⟨_, writeCmd_busy v hidle⟩

/-- A step of the host with a legal KVAR always answers a next state. -/
theorem exists_hostStep {s : State} (a : HostAction) (hkvar : ∃ x, variantOf s.kvar = some x) :
    ∃ t, hostStep a s = .next t := by
  cases a with
  | read addr size => exact ⟨_, rfl⟩
  | reset => exact ⟨_, rfl⟩
  | poll addr mask value gap =>
    rw [hostStep]
    split_ifs <;> exact ⟨_, rfl⟩
  | write addr size v =>
    rw [hostStep, memWrite]
    cases selectReg s addr size with
    | none => exact ⟨_, rfl⟩
    | some r =>
      by_cases hr : r = .cmd
      · obtain ⟨t, ht⟩ := exists_writeCmd v hkvar
        exact ⟨_, andThen_next.mpr ⟨t, by rw [hr]; exact ht, rfl⟩⟩
      · exact ⟨_, andThen_next.mpr ⟨_, writeReg_staged v s hr, rfl⟩⟩

/-- A running command always has an engine step. -/
theorem exists_engineStep {s : State} (hinv : s.Inv) (hbusy : s.phase ≠ .idle) : ∃ t, engineStep s = .next t := by
  obtain ⟨v, hrun⟩ := hinv.running hbusy
  obtain ⟨-, hlast⟩ | ⟨-, t, ht, -⟩ := engineStep_running hrun
  · exact ⟨_, hlast⟩
  · exact ⟨t, ht⟩

/-- Settles O50: by the agent whose step is due. -/
theorem noFaultNoHang : Obligations.NoFaultNoHang := by
  intro s hinv hdue
  obtain ⟨hturns, hidle, -⟩ | ⟨-, hbusy, he⟩ | ⟨u, rest, -, hbusy, -, he⟩ | ⟨u, rest, -, -, he⟩ := step_cases s
  · exact absurd hturns (hdue.resolve_left fun hbusy => hbusy hidle)
  · rw [he]
    exact exists_engineStep hinv hbusy
  · rw [he]
    exact exists_engineStep (s := s.setTurns _) hinv hbusy
  · obtain ⟨⟨-, hkvar⟩, -⟩ := hinv
    rw [he]
    exact exists_hostStep (s := s.setTurns rest) u.act hkvar

end Sys2Proof.Machine
end

section
/-! SUPPORT. Completion (60_exceptions.md R259, 70_reset_and_hazards.md R281, R282): an engine step takes one step off the
latency and a host step none, and the pending actions cannot hold the engine up for ever. -/

namespace Sys2Proof.Machine

/-- An accepted command has ERR = 0 and DONE = 0 until it completes (R200). -/
theorem State.Inv.busy {s : State} (h : s.Inv) (hbusy : s.phase ≠ .idle) :
    s.done = false ∧ s.err = 0#4 ∧ 1 ≤ s.stepsLeft := by
  obtain ⟨-, ⟨-, hsteps⟩, ⟨-, hseq⟩, -, -⟩ := h
  obtain ⟨hdone, herr, -⟩ := hseq hbusy
  exact ⟨hdone, herr, hsteps hbusy⟩

/-- An engine step in a state of the invariant: the last of the latency completes, an earlier one does not (R281). -/
theorem engineStep_progress {s t : State} (hinv : s.Inv) (hbusy : s.phase ≠ .idle) (h : engineStep s = .next t) :
    t.stepsLeft + 1 = s.stepsLeft ∧
      ((s.stepsLeft = 1 ∧ t.phase = .idle ∧ t.done = true ∧ t.err = 0#4) ∨
        (1 < s.stepsLeft ∧ t.phase = s.phase ∧ t.done = false)) := by
  obtain ⟨v, hrun⟩ := hinv.running hbusy
  obtain ⟨hdone, herr, hpos⟩ := hinv.busy hbusy
  obtain ⟨hsteps, hlast⟩ | ⟨hsteps, u, hu, hearlier⟩ := engineStep_running hrun
  · cases Host.Outcome.next.inj (h.symm.trans hlast)
    obtain ⟨hidle, hdonet, hzero, herrt, -⟩ := finished_control s
    exact ⟨by omega, .inl ⟨by omega, hidle, hdonet, herrt.trans herr⟩⟩
  · cases Host.Outcome.next.inj (h.symm.trans hu)
    rw [hearlier.frame]
    exact ⟨by simp only; omega, .inr ⟨hsteps, rfl, hdone⟩⟩

/-- Every step from a busy state: the reset input, an engine step, or a host step that does not move the engine (R30). -/
theorem busy_step_progress {s t : State} (hinv : s.Inv) (hbusy : s.phase ≠ .idle) (h : step s = .next t) :
    ByReset s t ∨
    (ByEngine s t ∧ t.stepsLeft + 1 = s.stepsLeft ∧
      ((s.stepsLeft = 1 ∧ t.phase = .idle ∧ t.done = true ∧ t.err = 0#4) ∨
        (1 < s.stepsLeft ∧ t.phase = s.phase ∧ t.done = false))) ∨
    (¬EngineDue s ∧ t.phase = s.phase ∧ t.stepsLeft = s.stepsLeft ∧ t.upc = s.upc) := by
  obtain hengine | hreset | ⟨hdue, hhost⟩ := step_outcome h
  · obtain ⟨-, ts, hstep⟩ := id hengine
    exact .inr (.inl ⟨hengine, engineStep_progress (s := s.setTurns ts) hinv hbusy hstep⟩)
  · exact .inl hreset
  · refine .inr (.inr ⟨hdue, ?_⟩)
    cases hhost with
    | busy _ ht => rw [ht]; exact ⟨rfl, rfl, rfl⟩
    | staged hidle _ | reported hidle _ _ | keyexp hidle _ _ | cipher hidle _ _ _ _ _ _ => exact absurd hidle hbusy

/-! The pending actions: a host step uses the first one up, or puts a POLL back behind an engine step (R113, R282). -/

/-- No CMD write changes the pending actions. -/
theorem writeCmd_turns {v : Word} {s t : State} (h : writeCmd v s = .next t) : t.turns = s.turns := by
  obtain ⟨-, ht⟩ | ⟨-, -, ht⟩ | ⟨-, x, -, -, ht⟩ | ⟨-, -, -, x, p, -, -, ht⟩ := writeCmd_cases h <;> rw [ht]

theorem memWrite_turns {addr size : Nat} {v : Word} {s t : State} (h : memWrite addr size v s = .next t) :
    t.turns = s.turns := by
  rw [memWrite] at h
  cases hr : selectReg s addr size with
  | none =>
    rw [hr] at h
    cases h
    rfl
  | some r =>
    rw [hr] at h
    obtain ⟨u, hu, rfl⟩ := andThen_next.mp h
    by_cases hcmd : r = .cmd
    · subst hcmd
      exact (writeCmd_turns hu : u.turns = s.turns)
    · rw [writeReg_staged v s hcmd] at hu
      cases hu
      rw [writeStaged_frame]
      rfl

/-- A host step adds no pending action but a POLL that goes on, and that waits for the engine (R113). -/
theorem hostStep_turns {a : HostAction} {s t : State} (h : hostStep a s = .next t) :
    t.turns = s.turns ∨ ∃ n, t.turns = ⟨n + 1, a⟩ :: s.turns := by
  cases a with
  | read addr size => cases h; exact .inl rfl
  | write addr size v => exact .inl (memWrite_turns h)
  | reset => cases h; exact .inl rfl
  | poll addr mask value gap =>
    rw [hostStep] at h
    split_ifs at h <;> cases h
    · exact .inr ⟨gap, rfl⟩
    · exact .inl rfl

/-- How many host steps can come before the engine's next step: the pending actions, without a first one that waits. -/
def hostSteps : List HostTurn → Nat
  | [] => 0
  | u :: rest => rest.length + if u.wait = 0 then 1 else 0

theorem hostSteps_le_length (ts : List HostTurn) : hostSteps ts ≤ ts.length := by
  cases ts with
  | nil => exact le_rfl
  | cons u rest => rw [hostSteps, List.length_cons]; split_ifs <;> omega

/-- The pending actions after a step from a busy state: an engine step lets the first one wait less, a host step uses it up or
makes it wait. -/
theorem busy_step_turns {s t : State} (hbusy : s.phase ≠ .idle) (h : step s = .next t) :
    (∀ u ∈ t.turns, ∃ u' ∈ s.turns, u.act = u'.act) ∧
    (EngineDue s ∧ hostSteps t.turns ≤ hostSteps s.turns + 1 ∨
      ¬EngineDue s ∧ hostSteps t.turns < hostSteps s.turns) := by
  match hturns : s.turns with
  | [] =>
    rw [step_of_noTurns hbusy hturns] at h
    have ht : t.turns = [] := by rw [engineStep_frame h]; exact hturns
    rw [ht]
    exact ⟨nofun, .inl ⟨⟨hbusy, fun u rest hcons => by rw [hturns] at hcons; cases hcons⟩, Nat.zero_le _⟩⟩
  | ⟨n + 1, a⟩ :: rest =>
    rw [step_of_waiting hbusy hturns] at h
    have ht : t.turns = ⟨n, a⟩ :: rest := by rw [engineStep_frame h]; rfl
    have hdue : EngineDue s := ⟨hbusy, fun u rest hcons => by rw [hturns] at hcons; cases hcons; exact Nat.succ_pos n⟩
    rw [ht]
    refine ⟨List.forall_mem_cons.mpr ⟨⟨_, List.mem_cons_self, rfl⟩, fun u hu => ⟨u, List.mem_cons_of_mem _ hu, rfl⟩⟩,
      .inl ⟨hdue, ?_⟩⟩
    simp only [hostSteps]
    split_ifs <;> omega
  | ⟨0, a⟩ :: rest =>
    rw [step_of_hostDue hturns (.inr rfl)] at h
    have hdue : ¬EngineDue s := fun ⟨_, hwait⟩ => absurd (hwait _ _ hturns) (Nat.lt_irrefl 0)
    have hrest : ∀ u ∈ rest, ∃ u' ∈ (⟨0, a⟩ :: rest : List HostTurn), u.act = u'.act :=
      fun u hu => ⟨u, List.mem_cons_of_mem _ hu, rfl⟩
    obtain ht | ⟨n, ht⟩ := hostStep_turns h <;> rw [ht]
    · exact ⟨hrest, .inr ⟨hdue, Nat.lt_succ_of_le (hostSteps_le_length rest)⟩⟩
    · exact ⟨List.forall_mem_cons.mpr ⟨⟨_, List.mem_cons_self, rfl⟩, hrest⟩, .inr ⟨hdue, Nat.lt_succ_self _⟩⟩

/-- Without a pending reset input the engine completes: each step lowers `2 * stepsLeft + hostSteps`. -/
theorem exists_run_to_idle {s : State} {n : Nat} (hn : 2 * s.stepsLeft + hostSteps s.turns ≤ n) (hinv : s.Inv)
    (hbusy : s.phase ≠ .idle) (hreset : ∀ u ∈ s.turns, u.act ≠ .reset) :
    ∃ k t, k ≤ n ∧ Host.Core.run Sys2Proof.core k s = .next t ∧ t.phase = .idle ∧ t.done = true ∧ t.err = 0#4 := by
  induction n generalizing s with
  | zero =>
    obtain ⟨-, -, hpos⟩ := hinv.busy hbusy
    omega
  | succ n ih =>
    obtain ⟨t, h⟩ := noFaultNoHang s hinv (.inl hbusy)
    obtain ⟨hacts, hturns⟩ := busy_step_turns hbusy h
    have hresett : ∀ u ∈ t.turns, u.act ≠ .reset := fun u hu => by
      obtain ⟨u', hu', hact⟩ := hacts u hu
      exact hact ▸ hreset u' hu'
    have hgo (hphase : t.phase = s.phase) (hless : 2 * t.stepsLeft + hostSteps t.turns ≤ n) :
        ∃ k t, k ≤ n + 1 ∧ Host.Core.run Sys2Proof.core k s = .next t ∧ t.phase = .idle ∧ t.done = true ∧
          t.err = 0#4 := by
      obtain ⟨k, u, hk, hrun, hend⟩ := ih hless (stepKeepsInv s t hinv h) (hphase ▸ hbusy) hresett
      exact ⟨k + 1, u, by omega, (run_next h).trans hrun, hend⟩
    obtain ⟨m, rest, hcons, -, -⟩ | ⟨⟨hdue, -⟩, hsteps, hlast | ⟨-, hphase, -⟩⟩ | ⟨hdue, hphase, hsteps, -⟩ :=
      busy_step_progress hinv hbusy h
    · exact absurd rfl (hreset _ (hcons ▸ List.mem_cons_self))
    · obtain ⟨-, hend⟩ := hlast
      exact ⟨1, t, by omega, run_next h, hend⟩
    · obtain ⟨-, hle⟩ | ⟨hnot, -⟩ := hturns
      · exact hgo hphase (by omega)
      · exact absurd hdue hnot
    · obtain ⟨hyes, -⟩ | ⟨-, hlt⟩ := hturns
      · exact absurd hyes hdue
      · exact hgo hphase (by omega)

/-- Settles O51: without pending actions by the run of the latency, with them by the measure, and each step by its agent. -/
theorem acceptedCommandsComplete : Obligations.AcceptedCommandsComplete := by
  intro s hinv hbusy
  obtain ⟨v, hrun⟩ := hinv.running hbusy
  obtain ⟨-, herr, hpos⟩ := hinv.busy hbusy
  refine ⟨fun hturns => ⟨fun k hk => ?_, s.finished, run_finished hrun hturns hpos, ?_⟩, fun hreset => ?_,
    fun t => busy_step_progress hinv hbusy⟩
  · obtain ⟨t, ht, -, -, hphase, -, -⟩ := run_earlier hrun hturns hk
    exact ⟨t, ht, hphase⟩
  · obtain ⟨hidle, hdone, -, herrt, -⟩ := finished_control s
    exact ⟨hidle, hdone, herrt.trans herr⟩
  · obtain ⟨k, t, hk, hend⟩ := exists_run_to_idle le_rfl hinv hbusy hreset
    exact ⟨k, t, hk.trans (Nat.add_le_add_left (hostSteps_le_length s.turns) _), hend⟩

end Sys2Proof.Machine
end
